-- ==== Sys2Proof/Word.lean ====
section
/-! DEFINITION. The word types of the block: bytes, 16-bit addresses, 14-bit NVRAM cells. -/

namespace Sys2Proof

/-- A port datum, a memory byte, a register of eight bits (10_state.md, `u8`). -/
abbrev Byte := BitVec 8

/-- A byte address in the core's 64 KiB memory (20_memory.md R70). -/
abbrev Addr := BitVec 16

/-- An NVRAM cell or the NVRAM data register (30_encoding.md R107). -/
abbrev CellWord := BitVec 14

end Sys2Proof
end

