-- ==== Sys2Proof/Config.lean ====
section
/-! DEFINITION. What an implementation fixes: the record `Config` of 00_scope.md R7 as plain data, the host's
answers as plain data, and the opaque constants that stand for what the spec leaves OPEN. -/

namespace Sys2Proof

/-- The eight NVRAM commands (30_encoding.md R104). -/
inductive NvrCommand
  | standby
  | acceptAddr
  | erase
  | acceptData
  | write
  | read
  | shiftOut
  | unused
  deriving DecidableEq, Repr, Inhabited

/-- The operations a byte written to port 0xA2 decodes to (30_encoding.md R116). -/
inductive A2Op
  | scrollLo (k : BitVec 2)
  | scrollHi (k : BitVec 2)
  | blinkToggle
  | reverseOn
  | reverseOff
  | baseUnderline
  | baseReverse
  | nop
  deriving DecidableEq, Repr, Inhabited

/-- The operations a byte written to port 0xC2 decodes to (30_encoding.md R117). -/
inductive C2Op
  | cols80
  | cols132
  | hz60
  | hz50
  deriving DecidableEq, Repr, Inhabited

/-- The two interrupt sources (60_exceptions.md R335). -/
inductive IrqSource
  | serial
  | vertical
  deriving DecidableEq, Repr, Inhabited

/-- The line attribute passed to the render surface (44_video_decoder.md R280). -/
inductive LineAttr
  | normal
  | doubleWidth
  | doubleHeightTop
  | doubleHeightBottom
  deriving DecidableEq, Repr, Inhabited

/-- A glyph (44_video_decoder.md R280): a code shown as itself, or a value of the surface's own, which the
tables `CTRL_GLYPH` and `LATIN_GLYPH` name. -/
inductive Glyph
  | direct (code : BitVec 7)
  | surface (name : Nat)
  deriving DecidableEq, Repr, Inhabited

/-- `NvrDataBit` and `NvrCode` (30_encoding.md R103): the default layout, data in bit 0 and code in bits 3:1, or any
other two functions of the latch byte as tables indexed by it. -/
inductive LatchDecode
  | standard
  | table (dataBit : Vector Bool 256) (code : Vector (BitVec 3) 256)
  deriving DecidableEq, Repr

/-- `SER_STATUS_LAYOUT` (30_encoding.md R111): bit 7 is fixed by the document, the other four are placed. -/
structure StatusLayout where
  syncDetect : Fin 8
  txEmpty : Fin 8
  rxReady : Fin 8
  txReady : Fin 8
  deriving DecidableEq, Repr, Inhabited

/-- The place and polarity of one source of the flags byte (30_encoding.md R114). -/
structure FlagPlace where
  bit : Fin 8
  activeLow : Bool
  deriving DecidableEq, Repr, Inhabited

/-- `FLAGS_LAYOUT` (30_encoding.md R114): the seven sources of the byte read from port 0x42. -/
structure FlagsLayout where
  txReady : FlagPlace
  avo : FlagPlace
  graphics : FlagPlace
  stp : FlagPlace
  vsync : FlagPlace
  nvrOut : FlagPlace
  keyboard : FlagPlace
  deriving DecidableEq, Repr, Inhabited

/-- `VecMerge` (60_exceptions.md R336): OR with the source's own vector, or any other merge as two tables
indexed by the vector held. -/
inductive VecMerge
  | orIn
  | table (serial vertical : Vector Byte 256)
  deriving DecidableEq, Repr

/-- `DecodeA2` or `DecodeC2`: the default decode of 30_encoding.md R116, R117, or any other as a table indexed by
the byte written. -/
inductive ByteDecode (op : Type)
  | standard
  | table (rows : Vector (List op) 256)
  deriving DecidableEq, Repr

/-- The parameters of the block (00_scope.md R7), as plain data. -/
structure Config where
  /-- `LBA4_PERIOD`, cycles. -/
  lba4Period : Nat
  /-- `LBA7_PERIOD`, cycles. -/
  lba7Period : Nat
  /-- `VSYNC_PERIOD_60`, cycles. -/
  vsyncPeriod60 : Nat
  /-- `VSYNC_PERIOD_50`, cycles. -/
  vsyncPeriod50 : Nat
  /-- `BAUD_DIVISOR[0..15]`. -/
  baudDivisor : Vector Nat 16
  /-- `BAUD_SCALE`. -/
  baudScale : Nat
  /-- `BAUD_RESET_PERIOD`, cycles. -/
  baudResetPeriod : Nat
  /-- `NVR_PERSIST_MIN`. -/
  nvrPersistMin : Nat
  /-- `NvrDataBit` and `NvrCode`. -/
  latch : LatchDecode
  /-- `NvrCommandOf`, indexed by the code. -/
  nvrCommands : Vector NvrCommand 8
  /-- `NVR_DEFAULT_IMAGE[0..99]`. -/
  nvrDefaultImage : Vector CellWord 100
  /-- `SER_STATUS_LAYOUT`. -/
  status : StatusLayout
  /-- `INTR_CHAR`. -/
  intrChar : Byte
  /-- `XON_CHAR`. -/
  xonChar : Byte
  /-- `XOFF_CHAR`. -/
  xoffChar : Byte
  /-- `FLAGS_LAYOUT`. -/
  flags : FlagsLayout
  /-- `VEC_FALLBACK`. -/
  vecFallback : Byte
  /-- `VEC_SERIAL`. -/
  vecSerial : Byte
  /-- `VEC_VERTICAL`. -/
  vecVertical : Byte
  /-- `VecMerge`. -/
  vecMerge : VecMerge
  /-- `FALLBACK_GUARDED`. -/
  fallbackGuarded : Bool
  /-- `DecodeA2`. -/
  decodeA2 : ByteDecode A2Op
  /-- `DecodeC2`. -/
  decodeC2 : ByteDecode C2Op
  /-- `IsBlanked`, indexed by the brightness code. -/
  isBlanked : Vector Bool 256
  /-- `VIDEO_BASE`. -/
  videoBase : Addr
  /-- `BANK_BASE[0]`. -/
  bankBase0 : Addr
  /-- `BANK_BASE[1]`. -/
  bankBase1 : Addr
  /-- `ATTR_OFFSET`. -/
  attrOffset : Addr
  /-- `FIRST_LINE_ATTR`. -/
  firstLineAttr : LineAttr
  /-- `FIRST_LINE_SCROLL`. -/
  firstLineScroll : Bool
  /-- `LineAttrOf`, indexed by the 2-bit code. -/
  lineAttrs : Vector LineAttr 4
  /-- `MAX_LINES`. -/
  maxLines : Nat
  /-- `MAX_LINE_BYTES`. -/
  maxLineBytes : Nat
  /-- `ATTR_BLINK_BIT`. -/
  attrBlinkBit : Fin 8
  /-- `ATTR_UNDERLINE_BIT`. -/
  attrUnderlineBit : Fin 8
  /-- `ATTR_BOLD_BIT`. -/
  attrBoldBit : Fin 8
  /-- `ATTR_ALT_BIT`. -/
  attrAltBit : Fin 8
  /-- `CTRL_GLYPH[0..31]`. -/
  ctrlGlyph : Vector Glyph 32
  /-- `LATIN_GLYPH`, total on the 128 codes. -/
  latinGlyph : Vector Glyph 128
  /-- `SETUP_A_MARKER`. -/
  setupAMarker : Vector Byte 9
  /-- `SETUP_B_MARKER`. -/
  setupBMarker : Vector Byte 9
  /-- `SETUP_A_TEXT`, shown by the render surface (44_video_decoder.md R297); the block does not read it. -/
  setupAText : List Byte
  /-- `SETUP_B_TEXT`, as above. -/
  setupBText : List Byte
  /-- `SETUP_LINE_INDEX`. -/
  setupLineIndex : Nat
  /-- `AVO_ENABLED`. -/
  avoEnabled : Bool
  /-- `GRAPHICS_PRESENT`. -/
  graphicsPresent : Bool
  /-- `STP_PRESENT`. -/
  stpPresent : Bool
  /-- `SCROLL_LATCH_BITS`. -/
  scrollLatchBits : Nat
  deriving DecidableEq, Repr

/-- What 00_scope.md R7 demands of a configuration: the code map and the line-attribute map are bijections (on sets
of equal finite size: no value twice), at least one line, four distinct attribute bits. -/
abbrev Config.WF (c : Config) : Prop :=
  c.nvrCommands.toList.Nodup ∧ c.lineAttrs.toList.Nodup ∧ 1 ≤ c.maxLines ∧
  [c.attrBlinkBit, c.attrUnderlineBit, c.attrBoldBit, c.attrAltBit].Nodup

/-- The host's and the keyboard's answers during one operation (60_exceptions.md R358, 42_serial_controller.md R201),
the byte an unlisted port read draws (43_io_dispatch.md R255), and the two inputs of a refresh
(44_video_decoder.md R293). No rule constrains any of them. -/
structure HostInputs where
  /-- `Host.PtyOpen`: `some h` is `ok(h)`, `none` is failure. -/
  ptyOpen : Option Nat
  /-- `Host.PtyWrite`: true is ok, false is error. -/
  ptyWriteOk : Bool
  /-- whether the host could write the file of `Host.NvrSave`; a failure is logged (41_nvram.md R168, U12). -/
  nvrSaveOk : Bool
  /-- `Host.PtyRead`: `some b` is `data(b)`, `none` is `fail`. -/
  ptyRead : Option Byte
  /-- `Host.ChildExited`. -/
  childExited : Bool
  /-- `Kbd.Ready()`. -/
  kbdReady : Bool
  /-- `Kbd.ReadLatch()`. -/
  kbdLatch : Byte
  /-- `draw(u8)` of a read of an unlisted port. -/
  unlistedByte : Byte
  /-- `INTL_ACTIVE`. -/
  intlActive : Bool
  /-- `SURFACE_SUPPORTS_LATIN`. -/
  surfaceLatin : Bool
  deriving DecidableEq, Repr, Inhabited

/-! OPEN parameters and unconstrained values: constants with no body, so no proof can see their value. -/

/-- `VSYNC_PERIOD_60` (92_eei_decisions.md D5, OPEN; log 4). -/
opaque Config.openVsyncPeriod60 : Nat
/-- `VSYNC_PERIOD_50` (D5, OPEN; log 4). -/
opaque Config.openVsyncPeriod50 : Nat
/-- `BAUD_DIVISOR` (D6, OPEN; log 4). -/
opaque Config.openBaudDivisor : Vector Nat 16
/-- `BAUD_RESET_PERIOD` (D6, OPEN; log 4). -/
opaque Config.openBaudResetPeriod : Nat
/-- `NVR_DEFAULT_IMAGE` (D12, OPEN; log 4). -/
opaque Config.openNvrDefaultImage : Vector CellWord 100
/-- `IsBlanked` (D26, OPEN; log 4). -/
opaque Config.openIsBlanked : Vector Bool 256
/-- The bijection `LineAttrOf` (D30, OPEN; log 4), as an order of the four attributes. -/
opaque Config.openLineAttrOrder : Equiv.Perm (Fin 4)
/-- `MAX_LINES` less one (D31, OPEN, at least 1; log 4). -/
opaque Config.openMaxLinesLessOne : Nat
/-- The four distinct attribute bit positions (D32, OPEN; log 4): the images of 0, 1, 2, 3. -/
opaque Config.openAttrBits : Equiv.Perm (Fin 8)
/-- `CTRL_GLYPH` (D33, OPEN; log 4). -/
opaque Config.openCtrlGlyph : Vector Glyph 32
/-- `LATIN_GLYPH` (D33, OPEN; log 4). -/
opaque Config.openLatinGlyph : Vector Glyph 128
/-- `SETUP_A_MARKER` (D34, OPEN; log 4). -/
opaque Config.openSetupAMarker : Vector Byte 9
/-- `SETUP_B_MARKER` (D34, OPEN; log 4). -/
opaque Config.openSetupBMarker : Vector Byte 9
/-- `SETUP_A_TEXT` (D34, OPEN; log 4). -/
opaque Config.openSetupAText : List Byte
/-- `SETUP_B_TEXT` (D34, OPEN; log 4). -/
opaque Config.openSetupBText : List Byte
/-- The persistence file as `Host.NvrLoad` finds it at reset, none if it does not exist (log 12). -/
opaque Config.openNvrFile : Option (List Byte)
/-- The run flag the host sets from the command line at reset (70_reset_and_hazards.md R370 step 4; log 11). -/
opaque Config.openRunning : Bool
/-- The control-mode flag the host sets from the command line at reset (log 11). -/
opaque Config.openControlMode : Bool
/-- The byte an address of the core's memory holds that nothing has stored to since reset
(70_reset_and_hazards.md R372: "a model takes it as a draw"; log 8). -/
opaque Config.memInit : Nat → Byte
/-- The unconstrained answers of the host for the n-th operation whose answers the queue does not give (log 6, 28). -/
opaque Config.freeInputs : Nat → HostInputs

end Sys2Proof
end

