-- ==== Sys2Proof/Syntax.lean ====
section
/-! DEFINITION. The operations of spec/opcode_table.json, one constructor a row, and the data their operands are
made of. The block executes no instruction words (30_encoding.md): its instructions are the operations the core,
the dividers and the host invoke on it. -/

namespace Sys2Proof

/-- The four Signal instances (10_state.md R22). -/
inductive SigId
  | lba4
  | lba7
  | vsync
  | baud
  deriving DecidableEq, Repr, Inhabited

/-- `Cell` of 44_video_decoder.md R280: one rendered character. -/
structure GlyphCell where
  addr : Addr
  code : BitVec 7
  glyph : Glyph
  inverse : Bool
  underline : Bool
  blink : Bool
  bold : Bool
  alt : Bool
  deriving DecidableEq, Repr, Inhabited

/-- One constructor per row of the opcode table. -/
inductive Instr
  /-- `SIG.ADV s, delta` (R141) -/
  | sigAdv (x : SigId) (delta : Nat)
  /-- `SIG.SETP s, p` (R143) -/
  | sigSetp (x : SigId) (p : Nat)
  /-- `NVR.CLK` (R161) -/
  | nvrClk
  /-- `NVR.STANDBY` (R163) -/
  | nvrStandby
  /-- `NVR.ACCEPT_ADDR` (R164) -/
  | nvrAcceptAddr (din : Bool)
  /-- `NVR.ERASE` (R165) -/
  | nvrErase
  /-- `NVR.ACCEPT_DATA` (R166) -/
  | nvrAcceptData (din : Bool)
  /-- `NVR.WRITE` (R167) -/
  | nvrWrite
  /-- `NVR.READ` (R169) -/
  | nvrRead
  /-- `NVR.SHIFT_OUT` (R170) -/
  | nvrShiftOut
  /-- `NVR.UNUSED` (R171) -/
  | nvrUnused
  /-- `IN 0x00` (R231) -/
  | in00
  /-- `OUT 0x00, v` (R232) -/
  | out00 (v : Byte)
  /-- `IN 0x01` (R233) -/
  | in01
  /-- `OUT 0x01, v` (R234) -/
  | out01 (v : Byte)
  /-- `OUT 0x02, v` (R235) -/
  | out02 (v : Byte)
  /-- `IN 0x42` (R236) -/
  | in42
  /-- `OUT 0x42, v` (R237) -/
  | out42 (v : Byte)
  /-- `OUT 0x62, v` (R238) -/
  | out62 (v : Byte)
  /-- `IN 0x82` (R239) -/
  | in82
  /-- `OUT 0x82, v` (R240) -/
  | out82 (v : Byte)
  /-- `OUT 0xA2, v` (R241) -/
  | outA2 (v : Byte)
  /-- `OUT 0xC2, v` (R250) -/
  | outC2 (v : Byte)
  /-- `IN other`: a read of an unlisted port (R255) -/
  | inOther (p : Byte)
  /-- `OUT other, v`: a write to an unlisted port (R256) -/
  | outOther (p v : Byte)
  /-- `A2.SCROLL_LO k` (R242) -/
  | a2ScrollLo (k : BitVec 2)
  /-- `A2.SCROLL_HI k` (R243) -/
  | a2ScrollHi (k : BitVec 2)
  /-- `A2.BLINK_TOGGLE` (R244) -/
  | a2BlinkToggle
  /-- `A2.NOP`, the row of the pattern 0x9 (R249) -/
  | a2Nop
  /-- `A2.NOP`, the row of the patterns 0xE and 0xF (R249) -/
  | a2NopReserved
  /-- `A2.REVERSE_ON` (R245) -/
  | a2ReverseOn
  /-- `A2.REVERSE_OFF` (R246) -/
  | a2ReverseOff
  /-- `A2.BASE_UNDERLINE` (R247) -/
  | a2BaseUnderline
  /-- `A2.BASE_REVERSE` (R248) -/
  | a2BaseReverse
  /-- `C2.COLS_80` (R251) -/
  | c2Cols80
  /-- `C2.COLS_132` (R252) -/
  | c2Cols132
  /-- `C2.HZ_60` (R253) -/
  | c2Hz60
  /-- `C2.HZ_50` (R254) -/
  | c2Hz50
  /-- `SER.WMODE v` (R191) -/
  | serWmode (v : Byte)
  /-- `SER.WCMD v` (R192) -/
  | serWcmd (v : Byte)
  /-- `SER.WDATA v` (R195) -/
  | serWdata (v : Byte)
  /-- `SER.RDATA` (R198) -/
  | serRdata
  /-- `SER.RSTAT` (R199) -/
  | serRstat
  /-- `SER.CLK` (R200) -/
  | serClk
  /-- `SER.WCOLS w` (R203) -/
  | serWcols (w : Bool)
  /-- `STEP delta` (R262) -/
  | step (delta : Nat)
  /-- `IRQ.RAISE s` (R336) -/
  | irqRaise (src : IrqSource)
  /-- `IRQ.ACK` (R341) -/
  | irqAck
  /-- `IRQ.FALLBACK` (R344) -/
  | irqFallback
  /-- `VID.REFRESH` (R282) -/
  | vidRefresh
  /-- `VID.LINE s` (R284) -/
  | vidLine (start : Addr)
  /-- `VID.DESC term` (R285) -/
  | vidDesc (term : Addr)
  /-- `VID.CHAR a, b` (R289) -/
  | vidChar (a : Addr) (b : Byte)
  /-- `VID.SETUP index, cells` (R296) -/
  | vidSetup (index : Nat) (cells : List GlyphCell)
  deriving DecidableEq, Repr

end Sys2Proof
end

