-- ==== Sys2Proof/WellFormed.lean ====
section
/-! DEFINITION. Which operands the spec's operand lines admit: an unlisted-port operation names an unlisted port
(30_encoding.md R102), and a character byte is never the terminator 0x7F (44_video_decoder.md R289). -/

namespace Sys2Proof

/-- The ports a read of which is listed (30_encoding.md R102). -/
def listedReads : List Byte := [0x00, 0x01, 0x42, 0x82]

/-- The ports a write to which is listed (30_encoding.md R102). -/
def listedWrites : List Byte := [0x00, 0x01, 0x02, 0x42, 0x62, 0x82, 0xA2, 0xC2]

/-- The terminator byte of a display line (00_scope.md R8). -/
def terminatorByte : Byte := 0x7F

/-- The operand checks of an operation. -/
def Instr.wellFormed : Instr → Bool
  | .inOther p => !(listedReads.contains p)
  | .outOther p _ => !(listedWrites.contains p)
  | .vidChar _ b => b != terminatorByte
  | _ => true

end Sys2Proof
end

