-- ==== Sys2Proof/Decode.lean ====
section
/-! DEFINITION. What the block decodes (30_encoding.md): the PORT word, the bytes written to its registers, a
character byte, a line descriptor. A request is either an encoded operation (a format and its bytes, the first
byte holding bits 7:0) or an operation that has no encoding and is invoked by name. -/

namespace Sys2Proof

/-! ## Default decodes of the two configuration registers -/

/-- `DecodeA2`, the default of 30_encoding.md R116 (92_eei_decisions.md D24; log 15): the low nibble selects, the high
nibble is ignored. -/
def A2Op.ofByte (b : Byte) : List A2Op :=
  let k : BitVec 2 := b.extractLsb' 0 2
  match (b.extractLsb' 0 4).toNat with
  | 0x0 => [.scrollLo k]
  | 0x1 => [.scrollLo k]
  | 0x2 => [.scrollLo k]
  | 0x3 => [.scrollLo k]
  | 0x4 => [.scrollHi k]
  | 0x5 => [.scrollHi k]
  | 0x6 => [.scrollHi k]
  | 0x7 => [.scrollHi k]
  | 0x8 => [.blinkToggle]
  | 0x9 => [.nop]
  | 0xA => [.reverseOn]
  | 0xB => [.reverseOff]
  | 0xC => [.baseUnderline]
  | 0xD => [.baseReverse]
  | _ => [.nop]

/-- `DecodeC2`, the default of 30_encoding.md R117 (D25; log 15): bits 5:4 select, the others are ignored. -/
def C2Op.ofByte (b : Byte) : List C2Op :=
  match (b.extractLsb' 4 2).toNat with
  | 0 => [.cols80]
  | 1 => [.cols132]
  | 2 => [.hz60]
  | _ => [.hz50]

/-- `NvrCommandOf`, the default code map of 30_encoding.md R104 (D8; log 13): the row order of the command table. -/
def NvrCommand.standardOrder : List NvrCommand :=
  [.standby, .acceptAddr, .erase, .acceptData, .write, .read, .shiftOut, .unused]

/-! ## Line descriptor (read from memory) -/

/-- The fields of format DESC (30_encoding.md R120). -/
structure DescFields where
  scroll : Bool
  attrCode : BitVec 2
  bank : Bool
  offHi : BitVec 4
  offLo : Byte
  deriving DecidableEq, Repr

/-- The fields of the two descriptor bytes, `sccbhhhh llllllll` (30_encoding.md R120). -/
def decodeDesc (d0 d1 : Byte) : DescFields where
  scroll := d0.getLsbD 7
  attrCode := d0.extractLsb' 5 2
  bank := d0.getLsbD 4
  offHi := d0.extractLsb' 0 4
  offLo := d1

/-- The two bytes of a descriptor. -/
def encodeDesc (f : DescFields) : Byte × Byte :=
  ((BitVec.ofBool f.scroll ++ f.attrCode ++ BitVec.ofBool f.bank ++ f.offHi : BitVec 8), f.offLo)

/-! ## Requests -/

/-- The formats of 30_encoding.md R100 that carry an operation. -/
inductive Format
  | port
  | nvrLatch
  | a2
  | c2
  | serMode
  | serCmd
  | serData
  | char
  deriving DecidableEq, Repr, Inhabited

/-- What an agent asks of the block: an encoded operation, or one that has no encoding and is invoked by name
(opcode table: "no binary encoding: the operation is invoked by the unit or agent named"). -/
inductive Request
  | bytes (f : Format) (bs : List Byte)
  | call (i : Instr)
  deriving DecidableEq, Repr

/-- Why a request is no operation. -/
inductive DecodeError
  /-- fewer bytes than the format has -/
  | tooShort (f : Format)
  /-- the second byte of a PORT word has a bit above bit 8 of the word set (30_encoding.md R101: 9 bits) -/
  | portWordTooWide (b : Byte)
  /-- a CHAR byte 0x7F, which is the terminator (44_video_decoder.md R289) -/
  | terminator
  /-- an operation that has an encoding, invoked by name -/
  | hasEncoding
  deriving DecidableEq, Repr

/-- A read of port `p` (30_encoding.md R102, rows with `dir = 0`). -/
def decodeIn (p : Byte) : Instr :=
  if p = 0x00 then .in00
  else if p = 0x01 then .in01
  else if p = 0x42 then .in42
  else if p = 0x82 then .in82
  else .inOther p

/-- A write of `v` to port `p` (30_encoding.md R102, rows with `dir = 1`). -/
def decodeOut (p v : Byte) : Instr :=
  if p = 0x00 then .out00 v
  else if p = 0x01 then .out01 v
  else if p = 0x02 then .out02 v
  else if p = 0x42 then .out42 v
  else if p = 0x62 then .out62 v
  else if p = 0x82 then .out82 v
  else if p = 0xA2 then .outA2 v
  else if p = 0xC2 then .outC2 v
  else .outOther p v

/-- A latch byte under the default layout and code map, `xxxxcccd` (30_encoding.md R103, R104). -/
def decodeNvrLatch (b : Byte) : Instr :=
  let din := b.getLsbD 0
  match (b.extractLsb' 1 3).toNat with
  | 0 => .nvrStandby
  | 1 => .nvrAcceptAddr din
  | 2 => .nvrErase
  | 3 => .nvrAcceptData din
  | 4 => .nvrWrite
  | 5 => .nvrRead
  | 6 => .nvrShiftOut
  | _ => .nvrUnused

/-- An A2 byte under the default decode, by the rows of the opcode table (30_encoding.md R116). -/
def decodeA2 (b : Byte) : Instr :=
  let k : BitVec 2 := b.extractLsb' 0 2
  match (b.extractLsb' 0 4).toNat with
  | 0x0 => .a2ScrollLo k
  | 0x1 => .a2ScrollLo k
  | 0x2 => .a2ScrollLo k
  | 0x3 => .a2ScrollLo k
  | 0x4 => .a2ScrollHi k
  | 0x5 => .a2ScrollHi k
  | 0x6 => .a2ScrollHi k
  | 0x7 => .a2ScrollHi k
  | 0x8 => .a2BlinkToggle
  | 0x9 => .a2Nop
  | 0xA => .a2ReverseOn
  | 0xB => .a2ReverseOff
  | 0xC => .a2BaseUnderline
  | 0xD => .a2BaseReverse
  | _ => .a2NopReserved

/-- A C2 byte under the default decode (30_encoding.md R117). -/
def decodeC2 (b : Byte) : Instr :=
  match (b.extractLsb' 4 2).toNat with
  | 0 => .c2Cols80
  | 1 => .c2Cols132
  | 2 => .c2Hz60
  | _ => .c2Hz50

/-- The operation at the head of the bytes of a format, and the bytes after it. A PORT word is its low byte, then a
byte that holds bit 8; a write is followed by its data byte (log 14). A CHAR byte is followed by the address it was
found at, low byte first (log 14). -/
def decodeBytes : Format → List Byte → Except DecodeError (Instr × List Byte)
  | .port, p :: d :: rest =>
    if d = 0 then .ok (decodeIn p, rest)
    else if d = 1 then
      match rest with
      | v :: rest' => .ok (decodeOut p v, rest')
      | [] => .error (.tooShort .port)
    else .error (.portWordTooWide d)
  | .nvrLatch, b :: rest => .ok (decodeNvrLatch b, rest)
  | .a2, b :: rest => .ok (decodeA2 b, rest)
  | .c2, b :: rest => .ok (decodeC2 b, rest)
  | .serMode, v :: rest => .ok (.serWmode v, rest)
  | .serCmd, v :: rest => .ok (.serWcmd v, rest)
  | .serData, v :: rest => .ok (.serWdata v, rest)
  | .char, b :: lo :: hi :: rest =>
    if b = terminatorByte then .error .terminator else .ok (.vidChar (hi ++ lo) b, rest)
  | f, _ => .error (.tooShort f)

/-! ## Encoder -/

/-- The request of an operation: its bytes, ignored bits zero, or its own name where it has no encoding. -/
def encode : Instr → Request
  | .nvrStandby => .bytes .nvrLatch [0x00]
  | .nvrAcceptAddr din => .bytes .nvrLatch [0x02 ||| (BitVec.ofBool din).setWidth 8]
  | .nvrErase => .bytes .nvrLatch [0x04]
  | .nvrAcceptData din => .bytes .nvrLatch [0x06 ||| (BitVec.ofBool din).setWidth 8]
  | .nvrWrite => .bytes .nvrLatch [0x08]
  | .nvrRead => .bytes .nvrLatch [0x0A]
  | .nvrShiftOut => .bytes .nvrLatch [0x0C]
  | .nvrUnused => .bytes .nvrLatch [0x0E]
  | .in00 => .bytes .port [0x00, 0]
  | .out00 v => .bytes .port [0x00, 1, v]
  | .in01 => .bytes .port [0x01, 0]
  | .out01 v => .bytes .port [0x01, 1, v]
  | .out02 v => .bytes .port [0x02, 1, v]
  | .in42 => .bytes .port [0x42, 0]
  | .out42 v => .bytes .port [0x42, 1, v]
  | .out62 v => .bytes .port [0x62, 1, v]
  | .in82 => .bytes .port [0x82, 0]
  | .out82 v => .bytes .port [0x82, 1, v]
  | .outA2 v => .bytes .port [0xA2, 1, v]
  | .outC2 v => .bytes .port [0xC2, 1, v]
  | .inOther p => .bytes .port [p, 0]
  | .outOther p v => .bytes .port [p, 1, v]
  | .a2ScrollLo k => .bytes .a2 [k.setWidth 8]
  | .a2ScrollHi k => .bytes .a2 [0x04 ||| k.setWidth 8]
  | .a2BlinkToggle => .bytes .a2 [0x08]
  | .a2Nop => .bytes .a2 [0x09]
  | .a2NopReserved => .bytes .a2 [0x0E]
  | .a2ReverseOn => .bytes .a2 [0x0A]
  | .a2ReverseOff => .bytes .a2 [0x0B]
  | .a2BaseUnderline => .bytes .a2 [0x0C]
  | .a2BaseReverse => .bytes .a2 [0x0D]
  | .c2Cols80 => .bytes .c2 [0x00]
  | .c2Cols132 => .bytes .c2 [0x10]
  | .c2Hz60 => .bytes .c2 [0x20]
  | .c2Hz50 => .bytes .c2 [0x30]
  | .serWmode v => .bytes .serMode [v]
  | .serWcmd v => .bytes .serCmd [v]
  | .serWdata v => .bytes .serData [v]
  | .vidChar a b => .bytes .char [b, a.extractLsb' 0 8, a.extractLsb' 8 8]
  | .sigAdv x delta => .call (.sigAdv x delta)
  | .sigSetp x p => .call (.sigSetp x p)
  | .nvrClk => .call .nvrClk
  | .serRdata => .call .serRdata
  | .serRstat => .call .serRstat
  | .serClk => .call .serClk
  | .serWcols w => .call (.serWcols w)
  | .step delta => .call (.step delta)
  | .irqRaise src => .call (.irqRaise src)
  | .irqAck => .call .irqAck
  | .irqFallback => .call .irqFallback
  | .vidRefresh => .call .vidRefresh
  | .vidLine start => .call (.vidLine start)
  | .vidDesc term => .call (.vidDesc term)
  | .vidSetup index cells => .call (.vidSetup index cells)

/-- The operation a request stands for. An operation that has an encoding comes as its bytes; one that has none comes
by name. Bytes beyond the operation are not looked at. -/
def decode : Request → Except DecodeError Instr
  | .bytes f bs =>
    match decodeBytes f bs with
    | .ok (i, _) => .ok i
    | .error e => .error e
  | .call i =>
    match encode i with
    | .call _ => .ok i
    | .bytes _ _ => .error .hasEncoding

/-! ## Words as the opcode table numbers them -/

/-- A byte of the opcode table names no format: NVRLATCH, A2, C2 and other rows share their eight bits. The format a
bare byte is read in (log 16): C2 where bits 5:4 are not both zero, else NVRLATCH where bit 0 is clear, else A2. -/
def formatOfTableByte (b : Byte) : Format :=
  if b.extractLsb' 4 2 ≠ 0 then .c2 else if b.getLsbD 0 then .a2 else .nvrLatch

/-- The request a word of the opcode table stands for: sixteen bits are a PORT word followed by a data byte 0, eight
bits a bare byte. -/
def tableRequest (nbits w : Nat) : Option Request :=
  if nbits = 16 then some (.bytes .port [BitVec.ofNat 8 w, BitVec.ofNat 8 (w / 256), 0])
  else if nbits = 8 then some (.bytes (formatOfTableByte (BitVec.ofNat 8 w)) [BitVec.ofNat 8 w, 0, 0])
  else none

/-- The operation the decoder reads from a word numbered as spec/opcode_table.json numbers it. -/
def decodeTableWord (nbits w : Nat) : Option Instr :=
  match tableRequest nbits w with
  | some r => (decode r).toOption
  | none => none

end Sys2Proof
end

