-- ==== Sys2Proof/Machine/Defaults.lean ====
section
/-! DEFINITION. The configuration of the machine at reset: every default of 92_eei_decisions.md (its last section)
and, for each OPEN parameter, a constant with no body. -/

namespace Sys2Proof.Machine

/-- The default code map, D8 (log 13). -/
def standardCommands : Vector NvrCommand 8 := Vector.ofFn fun i => NvrCommand.standardOrder.getD i.val .standby

/-- The status layout of D14 (log 18). -/
def standardStatus : StatusLayout where
  syncDetect := 6
  txEmpty := 2
  rxReady := 1
  txReady := 0

/-- The flags layout of D21 (log 19). -/
def standardFlags : FlagsLayout where
  txReady := { bit := 0, activeLow := false }
  avo := { bit := 1, activeLow := true }
  graphics := { bit := 2, activeLow := true }
  stp := { bit := 3, activeLow := false }
  vsync := { bit := 4, activeLow := false }
  nvrOut := { bit := 5, activeLow := false }
  keyboard := { bit := 7, activeLow := false }

/-- The four line attributes in a fixed order, which the OPEN bijection permutes. -/
def lineAttrAt (i : Fin 4) : LineAttr :=
  match i with
  | 0 => .normal
  | 1 => .doubleWidth
  | 2 => .doubleHeightTop
  | 3 => .doubleHeightBottom

/-- The default configuration in one place (92_eei_decisions.md, last section), OPEN parameters opaque (log 4, 5). -/
def standardConfig : Config where
  lba4Period := 22
  lba7Period := 182
  vsyncPeriod60 := Config.openVsyncPeriod60
  vsyncPeriod50 := Config.openVsyncPeriod50
  baudDivisor := Config.openBaudDivisor
  baudScale := 160
  baudResetPeriod := Config.openBaudResetPeriod
  nvrPersistMin := 50
  latch := .standard
  nvrCommands := standardCommands
  nvrDefaultImage := Config.openNvrDefaultImage
  status := standardStatus
  intrChar := 0x03
  xonChar := 0x11
  xoffChar := 0x13
  flags := standardFlags
  vecFallback := 0xC7
  vecSerial := 0xD7
  vecVertical := 0xE7
  vecMerge := .orIn
  fallbackGuarded := true
  decodeA2 := .standard
  decodeC2 := .standard
  isBlanked := Config.openIsBlanked
  videoBase := 0x2000
  bankBase0 := 0x4000
  bankBase1 := 0x2000
  attrOffset := 0x1000
  firstLineAttr := .normal
  firstLineScroll := false
  lineAttrs := Vector.ofFn fun i => lineAttrAt (Config.openLineAttrOrder i)
  maxLines := Config.openMaxLinesLessOne + 1
  maxLineBytes := 65536
  attrBlinkBit := Config.openAttrBits 0
  attrUnderlineBit := Config.openAttrBits 1
  attrBoldBit := Config.openAttrBits 2
  attrAltBit := Config.openAttrBits 3
  ctrlGlyph := Config.openCtrlGlyph
  latinGlyph := Config.openLatinGlyph
  setupAMarker := Config.openSetupAMarker
  setupBMarker := Config.openSetupBMarker
  setupAText := Config.openSetupAText
  setupBText := Config.openSetupBText
  setupLineIndex := 1
  avoEnabled := true
  graphicsPresent := false
  stpPresent := false
  scrollLatchBits := 4

end Sys2Proof.Machine
end

