-- ==== Sys2Proof/Machine/NvrFile.lean ====
section
/-! DEFINITION. The NVRAM persistence file, format NVRFILE (30_encoding.md R108), and the load of
70_reset_and_hazards.md R371. Text is a list of ASCII bytes. -/

namespace Sys2Proof.Machine

/-- A lower-case hexadecimal digit (30_encoding.md R108, D12). -/
def hexDigit (n : Nat) : Byte := if n < 10 then BitVec.ofNat 8 (0x30 + n) else BitVec.ofNat 8 (0x57 + n)

/-- A cell value zero-extended to sixteen bits, as four hexadecimal digits, most significant first. -/
def hexToken (w : CellWord) : List Byte :=
  [hexDigit (w.toNat / 4096), hexDigit (w.toNat / 256 % 16), hexDigit (w.toNat / 16 % 16), hexDigit (w.toNat % 16)]

/-- The byte after cell `i`: a newline after every tenth value, a single space after the others. -/
def separatorAfter (i : Nat) : Byte := if i % 10 = 9 then 0x0A else 0x20

/-- The text of the file for a table of cells: 100 tokens, ten a line. -/
def renderNvrFile (cells : Vector CellWord 100) : List Byte :=
  (List.finRange 100).flatMap fun (i : Fin 100) => hexToken (cells.get i) ++ [separatorAfter i.val]

/-- The value of a hexadecimal digit, either case (D12). -/
def hexValue (b : Byte) : Option Nat :=
  if 0x30 ≤ b.toNat ∧ b.toNat ≤ 0x39 then some (b.toNat - 0x30)
  else if 0x61 ≤ b.toNat ∧ b.toNat ≤ 0x66 then some (b.toNat - 0x57)
  else if 0x41 ≤ b.toNat ∧ b.toNat ≤ 0x46 then some (b.toNat - 0x37)
  else none

/-- A token of exactly four hexadecimal digits, masked to fourteen bits (R371, D12). -/
def parseToken : List Byte → Option CellWord
  | [a, b, c, d] =>
    match hexValue a, hexValue b, hexValue c, hexValue d with
    | some x, some y, some z, some w => some (BitVec.ofNat 14 (x * 4096 + y * 256 + z * 16 + w))
    | _, _, _, _ => none
  | _ => none

/-- The bytes that separate tokens: space and the control characters 0x09 to 0x0D (log 12). -/
def isSeparator (b : Byte) : Bool := b == 0x20 || (0x09 ≤ b.toNat && b.toNat ≤ 0x0D)

/-- The tokens of a text: its maximal runs of bytes that are no separators. `cur` is the run being read. -/
def splitTokens : List Byte → List Byte → List (List Byte)
  | cur, [] => if cur = [] then [] else [cur]
  | cur, b :: rest =>
    if isSeparator b then (if cur = [] then splitTokens [] rest else cur :: splitTokens [] rest)
    else splitTokens (cur ++ [b]) rest

/-- The first `n` tokens as cells; none if there are fewer or one of them does not parse (R371). -/
def parseCells : Nat → List (List Byte) → Option (List CellWord)
  | 0, _ => some []
  | _ + 1, [] => none
  | n + 1, t :: rest =>
    match parseToken t, parseCells n rest with
    | some w, some ws => some (w :: ws)
    | _, _ => none

/-- The table a file holds, or none on any parse failure. Anything after the hundredth token is ignored (D12). -/
def parseNvrFile (text : List Byte) : Option (Vector CellWord 100) :=
  match parseCells 100 (splitTokens [] text) with
  | some ws => some (Vector.ofFn fun i => ws.getD i.val 0)
  | none => none

/-- The load at reset: the file's table if there is a file and it parses, else the whole default image
(70_reset_and_hazards.md R371, 60_exceptions.md R334). -/
def loadNvr (image : Vector CellWord 100) (file : Option (List Byte)) : Vector CellWord 100 :=
  match file with
  | some text => (parseNvrFile text).getD image
  | none => image

/-- Whether the load falls back to the default image, which is logged (R371). -/
def nvrLoadFails (file : Option (List Byte)) : Bool :=
  match file with
  | some text => (parseNvrFile text).isNone
  | none => true

end Sys2Proof.Machine
end

