-- ==== Sys2Proof/Machine/Operands.lean ====
section
/-! DEFINITION. Operand forms (30_encoding.md R126) and the parameters of `Config` read as the functions the rules
use: latch fields, code map, baud period, vector merge, register decodes, descriptor address, glyph choice. -/

namespace Sys2Proof.Machine

/-! ## NVRAM latch and address -/

/-- `NvrDataBit(b)` (30_encoding.md R103; the default is the spec's D7, log 13). -/
def nvrDataBit (c : Config) (b : Byte) : Bool :=
  match c.latch with
  | .standard => b.getLsbD 0
  | .table dataBit _ => dataBit.get b.toFin

/-- `NvrCode(b)` (30_encoding.md R103; the default is the spec's D7, log 13). -/
def nvrCode (c : Config) (b : Byte) : BitVec 3 :=
  match c.latch with
  | .standard => b.extractLsb' 1 3
  | .table _ code => code.get b.toFin

/-- `NvrCommandOf(code)` (30_encoding.md R104). -/
def nvrCommandOf (c : Config) (code : BitVec 3) : NvrCommand := c.nvrCommands.get code.toFin

/-- One bit of a byte set, or none. -/
def bitIf (on : Bool) (place : Fin 8) : Byte := if on then 1#8 <<< place.val else 0#8

/-- Whether a latch byte holds a command and a data bit. -/
def latchHolds (c : Config) (cmd : NvrCommand) (din : Bool) (b : Byte) : Bool :=
  decide (nvrCommandOf c (nvrCode c b) = cmd) && (nvrDataBit c b == din)

/-- The first of `n` bytes counted from `k` that passes a test. -/
def firstByte (test : Byte → Bool) : Nat → Nat → Option Byte
  | 0, _ => none
  | n + 1, k => if test (BitVec.ofNat 8 k) then some (BitVec.ofNat 8 k) else firstByte test n (k + 1)

/-- The latch byte of a command and a data bit: the least byte that holds them (30_encoding.md R131, the byte `L`; 0 if
the layout gives no byte that does, log 10). -/
def latchByte (c : Config) (cmd : NvrCommand) (din : Bool) : Byte := (firstByte (latchHolds c cmd din) 256 0).getD 0

/-- The digit of a decade of the inverted address: the highest set bit, 0 if none is set (41_nvram.md R162; the empty
decade is the spec's D9, log 22). -/
def decadeDigit (inv : BitVec 10) : Fin 10 :=
  (List.finRange 10).foldl (fun (digit i : Fin 10) => if inv.getLsbD i.val then i else digit) 0

/-- `DecodeAddr(a)` (41_nvram.md R162): tens digit times ten plus ones digit. -/
def decodeAddr (a : BitVec 20) : Fin 100 :=
  let tens := decadeDigit ((~~~a).extractLsb' 10 10)
  let ones := decadeDigit ((~~~a).extractLsb' 0 10)
  ⟨tens.val * 10 + ones.val, by omega⟩

/-- The code that selects a cell (30_encoding.md R105): one clear bit in each decade. -/
def canonicalAddr (tens ones : Fin 10) : BitVec 20 := ~~~((1#20 <<< (10 + tens.val)) ||| (1#20 <<< ones.val))

/-! ## Baud and vertical periods -/

/-- The table index of a baud byte: its low nibble (30_encoding.md R113). -/
def baudIndex (v : Byte) : Fin 16 := (v.extractLsb' 0 4).toFin

/-- The full period of `sig.baud` that a baud byte selects (40_signal_generator.md R148). -/
def baudPeriod (c : Config) (v : Byte) : Nat := c.baudDivisor.get (baudIndex v) * c.baudScale

/-! ## Register decodes -/

/-- `DecodeA2(b)` (30_encoding.md R116). -/
def a2OpsOf (c : Config) (b : Byte) : List A2Op :=
  match c.decodeA2 with
  | .standard => A2Op.ofByte b
  | .table rows => rows.get b.toFin

/-- `DecodeC2(b)` (30_encoding.md R117). -/
def c2OpsOf (c : Config) (b : Byte) : List C2Op :=
  match c.decodeC2 with
  | .standard => C2Op.ofByte b
  | .table rows => rows.get b.toFin

/-- A value held in the scroll latch's width (10_state.md R42, 00_scope.md R10; log 21). -/
def inScrollLatch (c : Config) (v : Nat) : Nat := v % 2 ^ c.scrollLatchBits

/-! ## Interrupt vector and brightness -/

/-- `VEC[s]` (60_exceptions.md R336). -/
def vectorOf (c : Config) : IrqSource → Byte
  | .serial => c.vecSerial
  | .vertical => c.vecVertical

/-- `VecMerge(v, s)` (60_exceptions.md R336). -/
def mergeVector (c : Config) (v : Byte) (src : IrqSource) : Byte :=
  match c.vecMerge with
  | .orIn => v ||| vectorOf c src
  | .table serial vertical =>
    match src with
    | .serial => serial.get v.toFin
    | .vertical => vertical.get v.toFin

/-- `IsBlanked(brightness)` (43_io_dispatch.md R263). -/
def isBlanked (c : Config) (brightness : Byte) : Bool := c.isBlanked.get brightness.toFin

/-! ## Video -/

/-- `BANK_BASE[bank]` (44_video_decoder.md R285). -/
def bankBase (c : Config) (bank : Bool) : Addr := if bank then c.bankBase1 else c.bankBase0

/-- `LineAttrOf(code)` (44_video_decoder.md R285). -/
def lineAttrOf (c : Config) (code : BitVec 2) : LineAttr := c.lineAttrs.get code.toFin

/-- The next-line address of a descriptor, modulo 2^16 (30_encoding.md R120, R126). -/
def nextLineAddr (c : Config) (f : DescFields) : Addr := bankBase c f.bank + (f.offHi ++ f.offLo).setWidth 16

/-- The address of a character's attribute byte, modulo 2^16 (30_encoding.md R126). -/
def attrAddr (c : Config) (a : Addr) : Addr := a + c.attrOffset

/-- `GlyphOf(code)` (44_video_decoder.md R293 to R295). -/
def glyphOf (c : Config) (x : HostInputs) (code : BitVec 7) : Glyph :=
  if x.intlActive && x.surfaceLatin then c.latinGlyph.get code.toFin
  else if h : code.toNat < 32 then c.ctrlGlyph.get ⟨code.toNat, h⟩
  else .direct code

end Sys2Proof.Machine
end

