-- ==== Sys2Proof/Machine/State.lean ====
section
/-! DEFINITION. The state of the block as plain data, in the spec's own product of records (10_state.md R20), the
reasons a step can stop, and the state after reset (10_state.md R50, 70_reset_and_hazards.md R370). -/

namespace Sys2Proof.Machine

/-! ## Reasons to stop -/

/-- No operation of the block traps, faults or aborts (60_exceptions.md R330: "the block raises no synchronous
exception"), so there is no fault: nobody raises one (log 31). -/
inductive Fault
  deriving DecidableEq, Repr

/-- Why a step gives no next state. -/
inductive Refusal
  /-- Raised by `exec` for an operation that has no meaning yet. Safe: the machine stops. -/
  | notModelled (mnemonic : String)
  /-- Raised by `IRQ.ACK` with nothing pending, which is outside the block's contract: "a model refuses it"
  (60_exceptions.md R341, 93_implementation_defined.md U7; log 17). Safe: the machine stops. -/
  | acknowledgeNotPending
  /-- Raised by `step` for a request whose bytes are no operation (log 14). Safe: the machine stops. -/
  | noOperation (why : DecodeError)
  deriving DecidableEq, Repr

/-! ## Unit records -/

/-- A Signal (10_state.md R21). -/
structure Signal where
  periodHalf : Nat
  ticks : Nat
  value : Bool
  deriving DecidableEq, Repr

/-- The four Signal instances (10_state.md R22). -/
structure Signals where
  lba4 : Signal
  lba7 : Signal
  vsync : Signal
  baud : Signal
  deriving DecidableEq, Repr

/-- The NVRAM chip (10_state.md R23 to R28). -/
structure Nvr where
  addressReg : BitVec 20
  dataReg : CellWord
  contents : Vector CellWord 100
  latch : Byte
  out : Bool
  lastWrite : Option (Fin 100 × CellWord)
  deriving DecidableEq, Repr

/-- `ser.channel` (10_state.md R32): the shell child exists exactly while the channel is open. -/
inductive Channel
  | closed
  | opened (handle : Nat)
  deriving DecidableEq, Repr

/-- The serial controller (10_state.md R29 to R35). -/
structure Ser where
  modeSelectMode : Bool
  mode : Byte
  command : Byte
  channel : Channel
  rxByte : Byte
  rxReady : Bool
  xoff : Bool
  columnsWide : Bool
  deriving DecidableEq, Repr

/-- The fabric (10_state.md R36 to R38, R51). -/
structure Iof where
  baudReg : Byte
  intPending : Bool
  intVector : Byte
  refreshPending : Nat
  servicedThisStep : Bool
  deriving DecidableEq, Repr

/-- `disp.base_attr` (10_state.md R43). -/
inductive BaseAttr
  | reverse
  | underline
  deriving DecidableEq, Repr

/-- The display state (10_state.md R39 to R43). -/
structure Disp where
  brightness : Byte
  blinkFf : Bool
  columns132 : Bool
  refresh50hz : Bool
  interlace : Bool
  /-- `u(SCROLL_LATCH_BITS)`: below 2 to that width, by `State.Inv` (log 21) -/
  scrollLatch : Nat
  baseAttr : BaseAttr
  screenReverse : Bool
  deriving DecidableEq, Repr

/-- The run loop's state that the block writes or that gates it (10_state.md R45, R50). -/
structure HostSide where
  controlMode : Bool
  running : Bool
  pacingTicks : Nat
  deriving DecidableEq, Repr

/-! ## Frames (44_video_decoder.md R280) -/

/-- `RenderedLine`. -/
structure RenderedLine where
  index : Nat
  start : Addr
  attr : LineAttr
  scroll : Bool
  cells : List GlyphCell
  deriving DecidableEq, Repr

/-- `Frame.overlay`. -/
inductive Overlay
  | none
  | setupA
  | setupB
  deriving DecidableEq, Repr

/-- `Frame`, the description handed to the render surface. -/
structure Frame where
  lines : List RenderedLine
  overlay : Overlay
  blinkFf : Bool
  columns132 : Bool
  brightness : Byte
  scrollLatch : Nat
  screenReverse : Bool
  deriving DecidableEq, Repr

/-! ## What leaves the block -/

/-- A diagnostic, `Log(text)` (00_scope.md R11). -/
inductive Diagnostic
  | unlistedRead (port : Byte)
  | unlistedWrite (port v : Byte)
  | ptyOpenFailed
  | nvrLoadFailed
  | nvrSaveFailed
  deriving DecidableEq, Repr

/-- A call across the host interface (60_exceptions.md R358). -/
inductive HostEvent
  | nvrSave (table : Vector CellWord 100)
  | ptyOpen (rows cols : Nat)
  | ptyWrite (handle : Nat) (b : Byte)
  | ptyFlush (handle : Nat)
  | ptyRead (handle : Nat)
  | childExited (handle : Nat)
  | ptyResize (handle rows cols : Nat)
  | ptyClose (handle : Nat)
  | kbdReady
  | kbdReadLatch
  | kbdWriteStatus (v : Byte)
  | kbdClock
  | log (d : Diagnostic)
  | frame (f : Frame)
  deriving DecidableEq, Repr

/-- The value an operation returns to whoever invoked it. -/
inductive Result
  | none
  /-- a port read, `SER.RDATA`, `SER.RSTAT`, `IRQ.ACK` -/
  | byte (b : Byte)
  /-- `SER.CLK` -/
  | flag (b : Bool)
  /-- `SIG.ADV` -/
  | pulses (toggled rose : Bool)
  /-- `VID.LINE`: the cells and the terminator's address -/
  | line (cells : List GlyphCell) (term : Addr)
  /-- `VID.LINE`: no terminator within the bound -/
  | unterminated
  /-- `VID.DESC` -/
  | descriptor (next : Addr) (attr : LineAttr) (scroll : Bool)
  /-- `VID.CHAR` -/
  | cell (c : GlyphCell)
  /-- `VID.SETUP` -/
  | overlay (o : Overlay)
  /-- `VID.REFRESH` -/
  | frame (f : Frame)
  deriving DecidableEq, Repr

/-! ## What enters the block -/

/-- What one queued event does: request an operation, store a byte of the core's memory (20_memory.md R70, R83), or
set the run loop's two flags (60_exceptions.md R346). -/
inductive Action
  | op (r : Request)
  | coreStore (a : Addr) (b : Byte)
  | hostFlags (running controlMode : Bool)
  deriving DecidableEq, Repr

/-- A queued event: what is asked, and the host's answers while it is carried out. `none` leaves the answers
unconstrained (log 1, 6). -/
structure Event where
  action : Action
  answers : Option HostInputs
  deriving DecidableEq, Repr

/-! ## The state -/

/-- The state of the block and of what it touches. -/
structure State where
  /-- the configuration, which nothing writes (00_scope.md R7; log 3) -/
  cfg : Config
  sig : Signals
  nvr : Nvr
  ser : Ser
  iof : Iof
  disp : Disp
  host : HostSide
  /-- the core's memory, read by the video decoder only (10_state.md R47) -/
  mem : List Host.Cell
  /-- the host's answers during the operation at hand (the model's own; log 6) -/
  inputs : HostInputs
  /-- how many operations drew unconstrained answers (the model's own; log 28) -/
  draws : Nat
  /-- the value the last operation that returns one returned (the model's own; log 7) -/
  result : Result
  /-- the calls made on host and keyboard, newest first (the model's own; log 7) -/
  events : List HostEvent
  /-- what the agents ask next, oldest first (the model's own; log 1) -/
  inbox : List Event
  /-- an access of the core or a clocked unit has begun a step whose STEP is still to come (the model's own; log 35) -/
  insideStep : Bool
  /-- what the host asked and may not be carried out yet, oldest first: it waits for the end of a step (the model's own;
  log 29, 35) -/
  held : List Event
  deriving DecidableEq, Repr

/-- What an operation or a step gives. -/
abbrev Answer := Host.Outcome State Fault Refusal

/-! ## Reset -/

/-- The Signal of a full period, at phase zero (10_state.md R50). -/
def signalAtReset (period : Nat) : Signal where
  periodHalf := period / 2
  ticks := 0
  value := false

/-- Construction of the block (70_reset_and_hazards.md R370) under a configuration, with what `Host.NvrLoad` finds
and the two flags the host sets from the command line; every element by the table of 10_state.md R50 (log 10). -/
def State.resetWith (c : Config) (file : Option (List Byte)) (running controlMode : Bool) : State where
  cfg := c
  sig :=
    { lba4 := signalAtReset c.lba4Period
      lba7 := signalAtReset c.lba7Period
      vsync := signalAtReset c.vsyncPeriod60
      baud := signalAtReset c.baudResetPeriod }
  nvr :=
    { addressReg := 0
      dataReg := 0
      contents := loadNvr c.nvrDefaultImage file
      latch := latchByte c .standby false
      out := false
      lastWrite := none }
  ser :=
    { modeSelectMode := true
      mode := 0
      command := 0
      channel := .closed
      rxByte := 0
      rxReady := false
      xoff := false
      columnsWide := false }
  iof :=
    { baudReg := 0
      intPending := false
      intVector := c.vecFallback
      refreshPending := 0
      servicedThisStep := false }
  disp :=
    { brightness := 0
      blinkFf := false
      columns132 := false
      refresh50hz := false
      interlace := false
      scrollLatch := 0
      baseAttr := .reverse
      screenReverse := false }
  host := { controlMode := controlMode, running := running, pacingTicks := 0 }
  mem := []
  inputs := Config.freeInputs 0
  draws := 0
  result := .none
  events := if nvrLoadFails file then [.log .nvrLoadFailed] else []
  inbox := []
  insideStep := false
  held := []

/-- The machine right after reset: the default configuration with its OPEN parameters opaque, whatever file the host
finds, whatever flags the host sets. -/
def State.reset : State :=
  State.resetWith standardConfig Config.openNvrFile Config.openRunning Config.openControlMode

end Sys2Proof.Machine
end

