-- ==== Sys2Proof/Machine/Ops.lean ====
section
/-! DEFINITION. The named operations over the state that the meanings share: access to the units and to memory,
the dividers, the NVRAM chip, the serial controller, the display registers, and interrupts (which are this block's
exceptions: raising one, and the core's acknowledge beside it). -/

namespace Sys2Proof.Machine

/-! ## Access -/

def State.withSig (s : State) (g : Signals) : State := { s with sig := g }
def State.withNvr (s : State) (n : Nvr) : State := { s with nvr := n }
def State.withSer (s : State) (r : Ser) : State := { s with ser := r }
def State.withIof (s : State) (f : Iof) : State := { s with iof := f }
def State.withDisp (s : State) (d : Disp) : State := { s with disp := d }
def State.withHost (s : State) (h : HostSide) : State := { s with host := h }
def State.withMem (s : State) (m : List Host.Cell) : State := { s with mem := m }
def State.withInputs (s : State) (x : HostInputs) : State := { s with inputs := x }
def State.withDraws (s : State) (n : Nat) : State := { s with draws := n }
def State.withInbox (s : State) (q : List Event) : State := { s with inbox := q }
def State.withInsideStep (s : State) (b : Bool) : State := { s with insideStep := b }
def State.withHeld (s : State) (q : List Event) : State := { s with held := q }

/-- The value the operation returns. -/
def State.answer (s : State) (r : Result) : State := { s with result := r }

/-- A call across the host interface (60_exceptions.md R358), recorded newest first. -/
def State.emit (s : State) (e : HostEvent) : State := { s with events := e :: s.events }

/-- A call that is made only under a condition. -/
def State.emitIf (s : State) (made : Bool) (e : HostEvent) : State :=
  { s with events := if made then e :: s.events else s.events }

/-! ## Memory of the core (20_memory.md R70, R75, R83) -/

/-- What an address holds that the list does not name: the unconstrained byte of reset (log 8). -/
def Memory.unlisted (a : Nat) : Byte := Config.memInit a

/-- The listed byte at an address. -/
def Memory.lookup : List Host.Cell → Nat → Option Byte
  | [], _ => none
  | (k, b) :: rest, a => if k = a then some b else Memory.lookup rest a

/-- The byte at an address. -/
def Memory.read (m : List Host.Cell) (a : Nat) : Byte := (Memory.lookup m a).getD (Memory.unlisted a)

/-- The list without an address. -/
def Memory.erase : List Host.Cell → Nat → List Host.Cell
  | [], _ => []
  | (k, b) :: rest, a => if k = a then rest else (k, b) :: Memory.erase rest a

/-- The list with a byte at an address, addresses rising. -/
def Memory.insert : List Host.Cell → Nat → Byte → List Host.Cell
  | [], a, v => [(a, v)]
  | (k, b) :: rest, a, v =>
    if a < k then (a, v) :: (k, b) :: rest
    else if k = a then (a, v) :: rest
    else (k, b) :: Memory.insert rest a v

/-- A store of one byte, which keeps the canonical form. -/
def Memory.write (m : List Host.Cell) (a : Nat) (v : Byte) : List Host.Cell :=
  if v = Memory.unlisted a then Memory.erase m a else Memory.insert m a v

/-- The canonical form: addresses strictly rising and inside the 64 KiB, no entry equal to what an unlisted address
reads as. -/
abbrev Memory.wf (m : List Host.Cell) : Prop :=
  m.Pairwise (fun x y => x.1 < y.1) ∧ ∀ x ∈ m, x.1 < 65536 ∧ x.2 ≠ Memory.unlisted x.1

/-- `MemRead(addr, 1)` (00_scope.md R11): no side effect. -/
def memRead (s : State) (a : Addr) : Byte := Memory.read s.mem a.toNat

/-- A store by the core (20_memory.md R83; log 9). -/
def coreStore (a : Addr) (b : Byte) (s : State) : State := s.withMem (Memory.write s.mem a.toNat b)

/-! ## Signal generator (40_signal_generator.md) -/

/-- One of the four instances. -/
def Signals.get (g : Signals) : SigId → Signal
  | .lba4 => g.lba4
  | .lba7 => g.lba7
  | .vsync => g.vsync
  | .baud => g.baud

/-- The four instances with one replaced. -/
def Signals.put (g : Signals) (x : SigId) (v : Signal) : Signals :=
  match x with
  | .lba4 => { g with lba4 := v }
  | .lba7 => { g with lba7 := v }
  | .vsync => { g with vsync := v }
  | .baud => { g with baud := v }

/-- What one call of `advance` gives: the signal and the two pulses (R141). -/
structure Advance where
  signal : Signal
  toggled : Bool
  rose : Bool
  deriving DecidableEq, Repr

/-- `advance(delta)` (R141): the accumulator reaches the half period at equality (D1), one flip a call at most, and a
flip subtracts the half period. -/
def Signal.advance (g : Signal) (delta : Nat) : Advance :=
  if g.periodHalf ≤ g.ticks + delta then
    { signal := { g with ticks := g.ticks + delta - g.periodHalf, value := !g.value }
      toggled := true
      rose := !g.value }
  else
    { signal := { g with ticks := g.ticks + delta }
      toggled := false
      rose := false }

/-- `change_period(p)` (R143): the half period, rounded down; accumulator and level are kept. -/
def Signal.changePeriod (g : Signal) (p : Nat) : Signal := { g with periodHalf := p / 2 }

/-- The signal advanced in place. -/
def advanceSig (x : SigId) (delta : Nat) (s : State) : State :=
  s.withSig (s.sig.put x ((s.sig.get x).advance delta).signal)

/-- Whether advancing the signal would be a rising transition. -/
def sigRises (x : SigId) (delta : Nat) (s : State) : Bool := ((s.sig.get x).advance delta).rose

/-- `SIG.SETP x, p` (R143). -/
def setPeriod (x : SigId) (p : Nat) (s : State) : State := s.withSig (s.sig.put x ((s.sig.get x).changePeriod p))

/-! ## NVRAM chip (41_nvram.md) -/

/-- A register shifted left by one with a bit entering at bit 0, the highest bit lost (R164, R166). -/
def shiftIn {w : Nat} (r : BitVec w) (din : Bool) : BitVec w := (r <<< 1) ||| (BitVec.ofBool din).setWidth w

/-- R164. -/
def nvrAcceptAddr (din : Bool) (s : State) : State :=
  s.withNvr { s.nvr with addressReg := shiftIn s.nvr.addressReg din }

/-- R165. -/
def nvrErase (s : State) : State :=
  s.withNvr { s.nvr with contents := s.nvr.contents.set (decodeAddr s.nvr.addressReg).val 0x3FFF }

/-- R166. -/
def nvrAcceptData (din : Bool) (s : State) : State :=
  s.withNvr { s.nvr with dataReg := shiftIn s.nvr.dataReg din }

/-- `Host.NvrSave(table)` (R168): the persist event; a file that cannot be written is logged (60_exceptions.md R331,
93_implementation_defined.md U12) and changes nothing. -/
def nvrPersist (table : Vector CellWord 100) (s : State) : State :=
  (s.emit (.nvrSave table)).emitIf (!s.inputs.nvrSaveOk) (.log .nvrSaveFailed)

/-- The store of R167: the cell, the record of the previous write, and the persist of a cell at or above the
threshold (R168). -/
def nvrStore (addr : Fin 100) (data : CellWord) (s : State) : State :=
  let table := s.nvr.contents.set addr.val data
  let t := s.withNvr { s.nvr with contents := table, lastWrite := some (addr, data) }
  if s.cfg.nvrPersistMin ≤ addr.val then nvrPersist table t else t

/-- R167: nothing if the pair is that of the last WRITE that stored. -/
def nvrWrite (s : State) : State :=
  if s.nvr.lastWrite = some (decodeAddr s.nvr.addressReg, s.nvr.dataReg) then s
  else nvrStore (decodeAddr s.nvr.addressReg) s.nvr.dataReg s

/-- R169. -/
def nvrRead (s : State) : State :=
  s.withNvr { s.nvr with dataReg := s.nvr.contents.get (decodeAddr s.nvr.addressReg) }

/-- R170. -/
def nvrShiftOut (s : State) : State :=
  s.withNvr { s.nvr with out := s.nvr.dataReg.getLsbD 13, dataReg := s.nvr.dataReg <<< 1 }

/-- One command executed with a data bit (R161). -/
def nvrRun (cmd : NvrCommand) (din : Bool) (s : State) : State :=
  match cmd with
  | .standby => s
  | .acceptAddr => nvrAcceptAddr din s
  | .erase => nvrErase s
  | .acceptData => nvrAcceptData din s
  | .write => nvrWrite s
  | .read => nvrRead s
  | .shiftOut => nvrShiftOut s
  | .unused => s

/-- `NVR.CLK` (R161): the latched command with the latched data bit. -/
def nvrClock (s : State) : State :=
  nvrRun (nvrCommandOf s.cfg (nvrCode s.cfg s.nvr.latch)) (nvrDataBit s.cfg s.nvr.latch) s

/-! ## Serial controller (42_serial_controller.md) -/

/-- `OpenChannel()` (R194, R204). -/
def openChannel (s : State) : State :=
  let t := s.emit (.ptyOpen 24 80)
  match s.inputs.ptyOpen with
  | some h => t.withSer { s.ser with channel := .opened h }
  | none => (t.withSer { s.ser with channel := .closed }).emit (.log .ptyOpenFailed)

/-- `CloseChannel()` (R194). -/
def closeChannel (s : State) : State :=
  match s.ser.channel with
  | .opened h => (s.emit (.ptyClose h)).withSer { s.ser with channel := .closed }
  | .closed => s

/-- `SER.WMODE v` (R191). -/
def serWriteMode (v : Byte) (s : State) : State :=
  s.withSer { s.ser with mode := v, modeSelectMode := false }

/-- The command latched and the phase of R192, before the channel tests. -/
def serLatchCommand (v : Byte) (s : State) : State :=
  s.withSer { s.ser with command := v, modeSelectMode := v.getLsbD 6 || s.ser.modeSelectMode }

/-- `SER.WCMD v` (R192): both channel tests look at the state before the write (R194). -/
def serWriteCommand (v : Byte) (s : State) : State :=
  match s.ser.channel with
  | .closed => if v.getLsbD 0 && v.getLsbD 2 then openChannel (serLatchCommand v s) else serLatchCommand v s
  | .opened _ => if v.getLsbD 1 then serLatchCommand v s else closeChannel (serLatchCommand v s)

/-- A byte handed to the host side of an open channel; a write error closes it (R195, R197). -/
def serTransmit (h : Nat) (v : Byte) (s : State) : State :=
  let t := s.emit (.ptyWrite h v)
  if s.inputs.ptyWriteOk then t else closeChannel t

/-- `SER.WDATA v` (R195). -/
def serWriteData (v : Byte) (s : State) : State :=
  if v.toNat < 0x20 ∧ v = s.cfg.intrChar then
    match s.ser.channel with
    | .opened h => s.emit (.ptyFlush h)
    | .closed => s
  else if v = s.cfg.xoffChar then s.withSer { s.ser with xoff := true }
  else if v = s.cfg.xonChar then s.withSer { s.ser with xoff := false }
  else
    match s.ser.channel with
    | .opened h => serTransmit h v s
    | .closed => s

/-- `SER.RDATA` (R198): the byte is read, the ready flag cleared. -/
def serReadData (s : State) : State :=
  (s.withSer { s.ser with rxReady := false }).answer (.byte s.ser.rxByte)

/-- The read attempt of `SER.CLK` on an open channel (R200). -/
def serPoll (h : Nat) (s : State) : State :=
  let t := s.emit (.ptyRead h)
  match s.inputs.ptyRead with
  | some b => t.withSer { s.ser with rxByte := b, rxReady := true }
  | none => if s.inputs.childExited then closeChannel (t.emit (.childExited h)) else t.emit (.childExited h)

/-- The state after `SER.CLK` (R200). -/
def serClock (s : State) : State :=
  match s.ser.channel with
  | .closed => s
  | .opened h => if s.ser.rxReady || s.ser.xoff then s else serPoll h s

/-- The result of `SER.CLK` (R200): a byte arrived, or the channel was found closed. -/
def serClockResult (s : State) : Bool :=
  match s.ser.channel with
  | .closed => false
  | .opened _ => !(s.ser.rxReady || s.ser.xoff) && (s.inputs.ptyRead.isSome || s.inputs.childExited)

/-- `SER.WCOLS w` (R203). -/
def serWriteCols (w : Bool) (s : State) : State :=
  if w = s.ser.columnsWide then s
  else
    let t := s.withSer { s.ser with columnsWide := w }
    match s.ser.channel with
    | .opened h => t.emit (.ptyResize h 24 (if w then 132 else 80))
    | .closed => t

/-- A write to port 0x01 by phase (43_io_dispatch.md R234, 30_encoding.md R125). -/
def serWriteControl (v : Byte) (s : State) : State :=
  if s.ser.modeSelectMode then serWriteMode v s else serWriteCommand v s

/-! ## Display registers (43_io_dispatch.md R237, R241 to R254) -/

/-- R237. -/
def setBrightness (v : Byte) (s : State) : State := s.withDisp { s.disp with brightness := v }

/-- The scroll latch loaded with a value, in its width (10_state.md R42). -/
def loadScroll (v : Nat) (s : State) : State := s.withDisp { s.disp with scrollLatch := inScrollLatch s.cfg v }

/-- R242: the low half of the scroll latch. -/
def scrollLow (k : BitVec 2) (s : State) : State := loadScroll ((s.disp.scrollLatch &&& 0xC) ||| k.toNat) s

/-- R243: the high half of the scroll latch. -/
def scrollHigh (k : BitVec 2) (s : State) : State := loadScroll ((s.disp.scrollLatch &&& 0x3) ||| (k.toNat <<< 2)) s

/-- R244. -/
def toggleBlink (s : State) : State := s.withDisp { s.disp with blinkFf := !s.disp.blinkFf }

/-- R245, R246. -/
def setScreenReverse (on : Bool) (s : State) : State := s.withDisp { s.disp with screenReverse := on }

/-- R247, R248: the default decode also clears the blink flip-flop. -/
def setBaseAttr (b : BaseAttr) (s : State) : State := s.withDisp { s.disp with baseAttr := b, blinkFf := false }

/-- One operation of port 0xA2 (R241). -/
def a2Run (op : A2Op) (s : State) : State :=
  match op with
  | .scrollLo k => scrollLow k s
  | .scrollHi k => scrollHigh k s
  | .blinkToggle => toggleBlink s
  | .reverseOn => setScreenReverse true s
  | .reverseOff => setScreenReverse false s
  | .baseUnderline => setBaseAttr .underline s
  | .baseReverse => setBaseAttr .reverse s
  | .nop => s

/-- R251, R252: the columns flag, interlace on, and the pty width. -/
def setColumns (wide : Bool) (s : State) : State :=
  serWriteCols wide (s.withDisp { s.disp with columns132 := wide, interlace := true })

/-- R253, R254: the refresh rate, interlace off, and the period of `sig.vsync`. -/
def setRefreshRate (hz50 : Bool) (s : State) : State :=
  setPeriod .vsync (if hz50 then s.cfg.vsyncPeriod50 else s.cfg.vsyncPeriod60)
    (s.withDisp { s.disp with refresh50hz := hz50, interlace := false })

/-- One operation of port 0xC2 (R250). -/
def c2Run (op : C2Op) (s : State) : State :=
  match op with
  | .cols80 => setColumns false s
  | .cols132 => setColumns true s
  | .hz60 => setRefreshRate false s
  | .hz50 => setRefreshRate true s

/-- `OUT 0x02, v` (R235). -/
def writeBaud (v : Byte) (s : State) : State :=
  setPeriod .baud (baudPeriod s.cfg v) (s.withIof { s.iof with baudReg := v })

/-! ## Interrupts (60_exceptions.md) -/

/-- `IRQ.RAISE src` (R336): pending, and the source merged into the vector. -/
def raiseIrq (src : IrqSource) (s : State) : State :=
  s.withIof { s.iof with intPending := true, intVector := mergeVector s.cfg s.iof.intVector src }

/-- `IRQ.ACK` (R341): the vector is returned, flag and vector are cleared, the step counts as serviced. -/
def acknowledgeIrq (s : State) : State :=
  (s.withIof { s.iof with intPending := false, intVector := s.cfg.vecFallback, servicedThisStep := true }).answer
    (.byte s.iof.intVector)

/-- `IRQ.FALLBACK` (R344). -/
def fallbackIrq (s : State) : State :=
  if !s.iof.servicedThisStep && (!s.cfg.fallbackGuarded || !s.iof.intPending) then
    s.withIof { s.iof with intVector := s.cfg.vecFallback }
  else s

/-! ## The peripheral phase of a step (43_io_dispatch.md R262) -/

/-- P1 (R263). -/
def pacePhase (delta : Nat) (s : State) : State :=
  if isBlanked s.cfg s.disp.brightness then s
  else s.withHost { s.host with pacingTicks := s.host.pacingTicks + delta }

/-- R347: the block forces control mode. -/
def forceControlMode (s : State) : State := s.withHost { s.host with controlMode := true }

/-- What a true result of `SER.CLK` brings about (R265). -/
def serialEvent (s : State) : State :=
  match (raiseIrq .serial s).ser.channel with
  | .closed => forceControlMode (raiseIrq .serial s)
  | .opened _ => raiseIrq .serial s

/-- The serial phase (R265). -/
def serialPhase (s : State) : State := if serClockResult s then serialEvent (serClock s) else serClock s

/-- The keyboard phase (R266). -/
def keyboardPhase (s : State) : State := s.emit .kbdClock

/-- The vertical phase (R268). -/
def verticalPhase (s : State) : State :=
  let t := raiseIrq .vertical s
  t.withIof { t.iof with refreshPending := t.iof.refreshPending + 1 }

/-- A signal advanced, and the unit it clocks run on a rising transition. -/
def clockPhase (x : SigId) (delta : Nat) (unit : State → State) (s : State) : State :=
  if sigRises x delta s then unit (advanceSig x delta s) else advanceSig x delta s

/-- P1 to P6 in order (R262, D23). -/
def peripheralPhase (delta : Nat) (s : State) : State :=
  clockPhase .vsync delta verticalPhase
    (clockPhase .lba7 delta nvrClock
      (clockPhase .lba4 delta keyboardPhase
        (clockPhase .baud delta serialPhase (fallbackIrq (pacePhase delta s)))))

/-- The start of the next step's instruction phase (R261, R343). -/
def beginInstruction (s : State) : State := s.withIof { s.iof with servicedThisStep := false }

/-! ## Between steps and inside one (20_memory.md R79) -/

/-- A request of the host that may not be carried out yet waits for the end of a step (R79 (d), R282; log 29, 35). -/
def holdEvent (e : Event) (s : State) : State := s.withHeld (s.held ++ [e])

/-- The end of a step: what the host asked during it comes next, before anything else is asked, and the next
instruction phase begins (R79 (c), (d); 43_io_dispatch.md R261; log 32, 35). -/
def endStep (s : State) : State :=
  (((beginInstruction s).withInsideStep false).withInbox (s.held ++ s.inbox)).withHeld []

end Sys2Proof.Machine
end

