-- ==== Sys2Proof/Machine/DisplayControl.lean ====
section
/-! DEFINITION. The meanings of the operations decoded from ports 0xA2 and 0xC2 (43_io_dispatch.md R242 to R254). -/

namespace Sys2Proof.Machine

/-- `A2.SCROLL_LO k` (R242). -/
def execA2ScrollLo (k : BitVec 2) (s : State) : Answer := .next (a2Run (.scrollLo k) s)

/-- `A2.SCROLL_HI k` (R243). -/
def execA2ScrollHi (k : BitVec 2) (s : State) : Answer := .next (a2Run (.scrollHi k) s)

/-- `A2.BLINK_TOGGLE` (R244). -/
def execA2BlinkToggle (s : State) : Answer := .next (a2Run .blinkToggle s)

/-- `A2.NOP` (R249), pattern 0x9. -/
def execA2Nop (s : State) : Answer := .next (a2Run .nop s)

/-- `A2.NOP` (R249), patterns 0xE and 0xF. -/
def execA2NopReserved (s : State) : Answer := .next (a2Run .nop s)

/-- `A2.REVERSE_ON` (R245). -/
def execA2ReverseOn (s : State) : Answer := .next (a2Run .reverseOn s)

/-- `A2.REVERSE_OFF` (R246). -/
def execA2ReverseOff (s : State) : Answer := .next (a2Run .reverseOff s)

/-- `A2.BASE_UNDERLINE` (R247). -/
def execA2BaseUnderline (s : State) : Answer := .next (a2Run .baseUnderline s)

/-- `A2.BASE_REVERSE` (R248). -/
def execA2BaseReverse (s : State) : Answer := .next (a2Run .baseReverse s)

/-- `C2.COLS_80` (R251). -/
def execC2Cols80 (s : State) : Answer := .next (c2Run .cols80 s)

/-- `C2.COLS_132` (R252). -/
def execC2Cols132 (s : State) : Answer := .next (c2Run .cols132 s)

/-- `C2.HZ_60` (R253). -/
def execC2Hz60 (s : State) : Answer := .next (c2Run .hz60 s)

/-- `C2.HZ_50` (R254). -/
def execC2Hz50 (s : State) : Answer := .next (c2Run .hz50 s)

end Sys2Proof.Machine
end

