-- ==== Sys2Proof/Machine/Fabric.lean ====
section
/-! DEFINITION. The meanings of STEP (43_io_dispatch.md R262) and of the interrupt operations (60_exceptions.md). -/

namespace Sys2Proof.Machine

/-- `STEP delta` (R262): the peripheral phase. -/
def execStep (delta : Nat) (s : State) : Answer := .next (peripheralPhase delta s)

/-- `IRQ.RAISE src` (R336). -/
def execIrqRaise (src : IrqSource) (s : State) : Answer := .next (raiseIrq src s)

/-- `IRQ.ACK` (R341): refused when nothing is pending (U7). -/
def execIrqAck (s : State) : Answer := 
  if s.iof.intPending then .next (acknowledgeIrq s) else .refused .acknowledgeNotPending

/-- `IRQ.FALLBACK` (R344). -/
def execIrqFallback (s : State) : Answer := .next (fallbackIrq s)

end Sys2Proof.Machine
end

