-- ==== Sys2Proof/Machine/Nvram.lean ====
section
/-! DEFINITION. The meanings of the NVRAM chip's operations (41_nvram.md). -/

namespace Sys2Proof.Machine

/-- `NVR.CLK` (R161). -/
def execNvrClk (s : State) : Answer := .next (nvrClock s)

/-- `NVR.STANDBY` (R163): no effect. -/
def execNvrStandby (s : State) : Answer := .next (nvrRun .standby false s)

/-- `NVR.ACCEPT_ADDR` (R164). -/
def execNvrAcceptAddr (din : Bool) (s : State) : Answer := .next (nvrRun .acceptAddr din s)

/-- `NVR.ERASE` (R165). -/
def execNvrErase (s : State) : Answer := .next (nvrRun .erase false s)

/-- `NVR.ACCEPT_DATA` (R166). -/
def execNvrAcceptData (din : Bool) (s : State) : Answer := .next (nvrRun .acceptData din s)

/-- `NVR.WRITE` (R167). -/
def execNvrWrite (s : State) : Answer := .next (nvrRun .write false s)

/-- `NVR.READ` (R169). -/
def execNvrRead (s : State) : Answer := .next (nvrRun .read false s)

/-- `NVR.SHIFT_OUT` (R170). -/
def execNvrShiftOut (s : State) : Answer := .next (nvrRun .shiftOut false s)

/-- `NVR.UNUSED` (R171): no effect. -/
def execNvrUnused (s : State) : Answer := .next (nvrRun .unused false s)

end Sys2Proof.Machine
end

