-- ==== Sys2Proof/Machine/Flags.lean ====
section
/-! DEFINITION. The two bytes the block synthesises from one-bit sources: the serial status (42_serial_controller.md
R199) and the flags register (43_io_dispatch.md R236). The block has no condition codes (10_state.md R44). -/

namespace Sys2Proof.Machine

/-- Format SERSTAT (30_encoding.md R111): bit 7 and sync-detect set, tx-empty clear, rx-ready the pending flag,
tx-ready set. -/
def serStatus (c : Config) (rxReady : Bool) : Byte :=
  0x80 ||| bitIf true c.status.syncDetect ||| bitIf false c.status.txEmpty ||| bitIf rxReady c.status.rxReady |||
    bitIf true c.status.txReady

/-- The bit of one source of the flags byte, by its place and polarity. -/
def flagBit (p : FlagPlace) (on : Bool) : Byte := bitIf (on != p.activeLow) p.bit

/-- Format FLAGS (30_encoding.md R114). -/
def flagsByte (s : State) : Byte :=
  flagBit s.cfg.flags.txReady true ||| flagBit s.cfg.flags.avo s.cfg.avoEnabled |||
    flagBit s.cfg.flags.graphics s.cfg.graphicsPresent ||| flagBit s.cfg.flags.stp s.cfg.stpPresent |||
    flagBit s.cfg.flags.vsync s.sig.vsync.value ||| flagBit s.cfg.flags.nvrOut s.nvr.out |||
    flagBit s.cfg.flags.keyboard s.inputs.kbdReady

end Sys2Proof.Machine
end

