-- ==== Sys2Proof/Machine/Ports.lean ====
section
/-! DEFINITION. The meanings of the port operations (43_io_dispatch.md R230 to R256). -/

namespace Sys2Proof.Machine

/-- `IN 0x00` (R231). -/
def execIn00 (s : State) : Answer := .next (serReadData s)

/-- `OUT 0x00, v` (R232). -/
def execOut00 (v : Byte) (s : State) : Answer := .next (serWriteData v s)

/-- `IN 0x01` (R233). -/
def execIn01 (s : State) : Answer := .next (s.answer (.byte (serStatus s.cfg s.ser.rxReady)))

/-- `OUT 0x01, v` (R234): by the phase before the write. -/
def execOut01 (v : Byte) (s : State) : Answer := .next (serWriteControl v s)

/-- `OUT 0x02, v` (R235). -/
def execOut02 (v : Byte) (s : State) : Answer := .next (writeBaud v s)

/-- `IN 0x42` (R236): queries the keyboard, no side effect on the block. -/
def execIn42 (s : State) : Answer := .next ((s.emit .kbdReady).answer (.byte (flagsByte s)))

/-- `OUT 0x42, v` (R237). -/
def execOut42 (v : Byte) (s : State) : Answer := .next (setBrightness v s)

/-- `OUT 0x62, v` (R238): latches, executes nothing. -/
def execOut62 (v : Byte) (s : State) : Answer := .next (s.withNvr { s.nvr with latch := v })

/-- `IN 0x82` (R239): the external keyboard's latch. -/
def execIn82 (s : State) : Answer := .next ((s.emit .kbdReadLatch).answer (.byte s.inputs.kbdLatch))

/-- `OUT 0x82, v` (R240): to the external keyboard. -/
def execOut82 (v : Byte) (s : State) : Answer := .next (s.emit (.kbdWriteStatus v))

/-- `OUT 0xA2, v` (R241): each operation of `DecodeA2(v)` in turn. -/
def execOutA2 (v : Byte) (s : State) : Answer := .next ((a2OpsOf s.cfg v).foldl (fun t op => a2Run op t) s)

/-- `OUT 0xC2, v` (R250): each operation of `DecodeC2(v)` in turn. -/
def execOutC2 (v : Byte) (s : State) : Answer := .next ((c2OpsOf s.cfg v).foldl (fun t op => c2Run op t) s)

/-- `IN other` (R255): logs, and any byte. -/
def execInOther (p : Byte) (s : State) : Answer := 
  .next ((s.emit (.log (.unlistedRead p))).answer (.byte s.inputs.unlistedByte))

/-- `OUT other, v` (R256): logs only. -/
def execOutOther (p v : Byte) (s : State) : Answer := .next (s.emit (.log (.unlistedWrite p v)))

end Sys2Proof.Machine
end

