-- ==== Sys2Proof/Machine/Serial.lean ====
section
/-! DEFINITION. The meanings of the serial controller's operations (42_serial_controller.md). -/

namespace Sys2Proof.Machine

/-- `SER.WMODE v` (R191). -/
def execSerWmode (v : Byte) (s : State) : Answer := .next (serWriteMode v s)

/-- `SER.WCMD v` (R192). -/
def execSerWcmd (v : Byte) (s : State) : Answer := .next (serWriteCommand v s)

/-- `SER.WDATA v` (R195). -/
def execSerWdata (v : Byte) (s : State) : Answer := .next (serWriteData v s)

/-- `SER.RDATA` (R198). -/
def execSerRdata (s : State) : Answer := .next (serReadData s)

/-- `SER.RSTAT` (R199): no side effect. -/
def execSerRstat (s : State) : Answer := .next (s.answer (.byte (serStatus s.cfg s.ser.rxReady)))

/-- `SER.CLK` (R200): returns whether there is an event. -/
def execSerClk (s : State) : Answer := .next ((serClock s).answer (.flag (serClockResult s)))

/-- `SER.WCOLS w` (R203). -/
def execSerWcols (w : Bool) (s : State) : Answer := .next (serWriteCols w s)

end Sys2Proof.Machine
end

