-- ==== Sys2Proof/Machine/SignalGenerator.lean ====
section
/-! DEFINITION. The meanings of the signal generator's operations (40_signal_generator.md). -/

namespace Sys2Proof.Machine

/-- `SIG.ADV x, delta` (R141): returns the two pulses. -/
def execSigAdv (x : SigId) (delta : Nat) (s : State) : Answer := 
  let r := (s.sig.get x).advance delta
  .next ((advanceSig x delta s).answer (.pulses r.toggled r.rose))

/-- `SIG.SETP x, p` (R143). -/
def execSigSetp (x : SigId) (p : Nat) (s : State) : Answer := .next (setPeriod x p s)

end Sys2Proof.Machine
end

