-- ==== Sys2Proof/Machine/VideoOps.lean ====
section
/-! DEFINITION. The video memory decoder as a function of memory, display state, configuration and the refresh's
inputs (44_video_decoder.md). Nothing here writes the state. -/

namespace Sys2Proof.Machine

/-- `VID.CHAR(a, b)` (R289): attributes from the attribute byte when the option is enabled, else the base-attribute
remap (R291); screen reverse last (R292). -/
def vidChar (s : State) (a : Addr) (b : Byte) : GlyphCell :=
  let rawInverse := b.getLsbD 7
  let code : BitVec 7 := b.extractLsb' 0 7
  let t := memRead s (attrAddr s.cfg a)
  let avo := s.cfg.avoEnabled
  let remap := !avo && (s.disp.baseAttr == .underline)
  { addr := a
    code := code
    glyph := glyphOf s.cfg s.inputs code
    inverse := (rawInverse && !remap) != s.disp.screenReverse
    underline := if avo then !t.getLsbD s.cfg.attrUnderlineBit.val else rawInverse && remap
    blink := avo && !t.getLsbD s.cfg.attrBlinkBit.val
    bold := avo && !t.getLsbD s.cfg.attrBoldBit.val
    alt := avo && !t.getLsbD s.cfg.attrAltBit.val }

/-- The scan of R284 from an address, with a bound on the bytes looked at. -/
def scanLine (s : State) : Nat → Addr → Option (List GlyphCell × Addr)
  | 0, _ => none
  | n + 1, a =>
    if memRead s a = terminatorByte then some ([], a)
    else
      match scanLine s n (a + 1) with
      | some (cells, term) => some (vidChar s a (memRead s a) :: cells, term)
      | none => none

/-- `VID.LINE(s)` (R284). -/
def vidLine (s : State) (start : Addr) : Option (List GlyphCell × Addr) := scanLine s s.cfg.maxLineBytes start

/-- What `VID.DESC` returns (R285). -/
structure NextLine where
  next : Addr
  attr : LineAttr
  scroll : Bool
  deriving DecidableEq, Repr

/-- `VID.DESC(term)` (R285). -/
def vidDesc (s : State) (term : Addr) : NextLine :=
  let f := decodeDesc (memRead s (term + 1)) (memRead s (term + 2))
  { next := nextLineAddr s.cfg f
    attr := lineAttrOf s.cfg f.attrCode
    scroll := f.scroll }

/-- `VID.SETUP(index, cells)` (R296). -/
def vidSetup (s : State) (index : Nat) (cells : List GlyphCell) : Overlay :=
  if index ≠ s.cfg.setupLineIndex ∨ s.disp.scrollLatch ≠ 0 ∨ cells.length < 9 then .none
  else
    let marker := (cells.take 9).map fun c => memRead s c.addr
    if marker = s.cfg.setupAMarker.toList then .setupA
    else if marker = s.cfg.setupBMarker.toList then .setupB
    else .none

/-- The walker of R283 from one line on: at most `room` more lines, the line's index, address, attribute and scroll
flag, and the overlay found so far. -/
def walkFrom (s : State) : Nat → Nat → Addr → LineAttr → Bool → Overlay → List RenderedLine × Overlay
  | 0, _, _, _, _, overlay => ([], overlay)
  | room + 1, index, start, attr, scroll, overlay =>
    match vidLine s start with
    | none => ([], overlay)
    | some (cells, term) =>
      let overlay' := if overlay = .none then vidSetup s index cells else overlay
      let line : RenderedLine := { index, start, attr, scroll, cells }
      let d := vidDesc s term
      if d.next = start then ([line], overlay')
      else
        let rest := walkFrom s room (index + 1) d.next d.attr d.scroll overlay'
        (line :: rest.1, rest.2)

/-- `Walk()` (R283). -/
def walk (s : State) : List RenderedLine × Overlay :=
  walkFrom s s.cfg.maxLines 0 s.cfg.videoBase s.cfg.firstLineAttr s.cfg.firstLineScroll .none

/-- The frame of R282. -/
def frameOf (s : State) : Frame where
  lines := (walk s).1
  overlay := (walk s).2
  blinkFf := s.disp.blinkFf
  columns132 := s.disp.columns132
  brightness := s.disp.brightness
  scrollLatch := s.disp.scrollLatch
  screenReverse := s.disp.screenReverse

/-- `VID.REFRESH` (R282): the counter cleared, the frame returned and handed to the render surface (R281). -/
def refresh (s : State) : State :=
  ((s.withIof { s.iof with refreshPending := 0 }).emit (.frame (frameOf s))).answer (.frame (frameOf s))

end Sys2Proof.Machine
end

