-- ==== Sys2Proof/Machine/Video.lean ====
section
/-! DEFINITION. The meanings of the video decoder's operations (44_video_decoder.md). -/

namespace Sys2Proof.Machine

/-- `VID.REFRESH` (R282). -/
def execVidRefresh (s : State) : Answer := .next (refresh s)

/-- `VID.LINE start` (R284). -/
def execVidLine (start : Addr) (s : State) : Answer := 
  match vidLine s start with
  | some (cells, term) => .next (s.answer (.line cells term))
  | none => .next (s.answer .unterminated)

/-- `VID.DESC term` (R285). -/
def execVidDesc (term : Addr) (s : State) : Answer := 
  let d := vidDesc s term
  .next (s.answer (.descriptor d.next d.attr d.scroll))

/-- `VID.CHAR a, b` (R289). -/
def execVidChar (a : Addr) (b : Byte) (s : State) : Answer := .next (s.answer (.cell (vidChar s a b)))

/-- `VID.SETUP index, cells` (R296). -/
def execVidSetup (index : Nat) (cells : List GlyphCell) (s : State) : Answer := 
  .next (s.answer (.overlay (vidSetup s index cells)))

end Sys2Proof.Machine
end

