-- ==== Sys2Proof/Machine/Dispatch.lean ====
section
/-! DEFINITION. One arm per operation of the opcode table: each calls its own meaning. -/

namespace Sys2Proof.Machine

def exec (i : Instr) (s : State) : Host.Outcome State Fault Refusal :=
  match i with
  | .sigAdv x delta => Sys2Proof.Machine.execSigAdv x delta s
  | .sigSetp x p => Sys2Proof.Machine.execSigSetp x p s
  | .nvrClk => Sys2Proof.Machine.execNvrClk s
  | .nvrStandby => Sys2Proof.Machine.execNvrStandby s
  | .nvrAcceptAddr din => Sys2Proof.Machine.execNvrAcceptAddr din s
  | .nvrErase => Sys2Proof.Machine.execNvrErase s
  | .nvrAcceptData din => Sys2Proof.Machine.execNvrAcceptData din s
  | .nvrWrite => Sys2Proof.Machine.execNvrWrite s
  | .nvrRead => Sys2Proof.Machine.execNvrRead s
  | .nvrShiftOut => Sys2Proof.Machine.execNvrShiftOut s
  | .nvrUnused => Sys2Proof.Machine.execNvrUnused s
  | .in00 => Sys2Proof.Machine.execIn00 s
  | .out00 v => Sys2Proof.Machine.execOut00 v s
  | .in01 => Sys2Proof.Machine.execIn01 s
  | .out01 v => Sys2Proof.Machine.execOut01 v s
  | .out02 v => Sys2Proof.Machine.execOut02 v s
  | .in42 => Sys2Proof.Machine.execIn42 s
  | .out42 v => Sys2Proof.Machine.execOut42 v s
  | .out62 v => Sys2Proof.Machine.execOut62 v s
  | .in82 => Sys2Proof.Machine.execIn82 s
  | .out82 v => Sys2Proof.Machine.execOut82 v s
  | .outA2 v => Sys2Proof.Machine.execOutA2 v s
  | .outC2 v => Sys2Proof.Machine.execOutC2 v s
  | .inOther p => Sys2Proof.Machine.execInOther p s
  | .outOther p v => Sys2Proof.Machine.execOutOther p v s
  | .a2ScrollLo k => Sys2Proof.Machine.execA2ScrollLo k s
  | .a2ScrollHi k => Sys2Proof.Machine.execA2ScrollHi k s
  | .a2BlinkToggle => Sys2Proof.Machine.execA2BlinkToggle s
  | .a2Nop => Sys2Proof.Machine.execA2Nop s
  | .a2NopReserved => Sys2Proof.Machine.execA2NopReserved s
  | .a2ReverseOn => Sys2Proof.Machine.execA2ReverseOn s
  | .a2ReverseOff => Sys2Proof.Machine.execA2ReverseOff s
  | .a2BaseUnderline => Sys2Proof.Machine.execA2BaseUnderline s
  | .a2BaseReverse => Sys2Proof.Machine.execA2BaseReverse s
  | .c2Cols80 => Sys2Proof.Machine.execC2Cols80 s
  | .c2Cols132 => Sys2Proof.Machine.execC2Cols132 s
  | .c2Hz60 => Sys2Proof.Machine.execC2Hz60 s
  | .c2Hz50 => Sys2Proof.Machine.execC2Hz50 s
  | .serWmode v => Sys2Proof.Machine.execSerWmode v s
  | .serWcmd v => Sys2Proof.Machine.execSerWcmd v s
  | .serWdata v => Sys2Proof.Machine.execSerWdata v s
  | .serRdata => Sys2Proof.Machine.execSerRdata s
  | .serRstat => Sys2Proof.Machine.execSerRstat s
  | .serClk => Sys2Proof.Machine.execSerClk s
  | .serWcols w => Sys2Proof.Machine.execSerWcols w s
  | .step delta => Sys2Proof.Machine.execStep delta s
  | .irqRaise src => Sys2Proof.Machine.execIrqRaise src s
  | .irqAck => Sys2Proof.Machine.execIrqAck s
  | .irqFallback => Sys2Proof.Machine.execIrqFallback s
  | .vidRefresh => Sys2Proof.Machine.execVidRefresh s
  | .vidLine start => Sys2Proof.Machine.execVidLine start s
  | .vidDesc term => Sys2Proof.Machine.execVidDesc term s
  | .vidChar a b => Sys2Proof.Machine.execVidChar a b s
  | .vidSetup index cells => Sys2Proof.Machine.execVidSetup index cells s

end Sys2Proof.Machine
end

