-- ==== Sys2Proof/Machine/Agenda.lean ====
section
/-! DEFINITION. Taking the next queued event and carrying it out: the block's fetch (log 1). -/

namespace Sys2Proof.Machine

/-- The host's answers for the operation at hand: those the event gives, or unconstrained ones (log 6, 28). -/
def admitAnswers (answers : Option HostInputs) (s : State) : State :=
  match answers with
  | some x => s.withInputs x
  | none => (s.withInputs (Config.freeInputs (s.draws + 1))).withDraws (s.draws + 1)

/-- The operations of the video decoder, which the host invokes (44_video_decoder.md R282, 60_exceptions.md R358). -/
def isVideo : Instr → Bool
  | .vidRefresh | .vidLine _ | .vidDesc _ | .vidChar _ _ | .vidSetup _ _ => true
  | _ => false

/-- A request for a refresh. -/
def isRefresh : Action → Bool
  | .op r =>
    match decode r with
    | .ok i => decide (i = .vidRefresh)
    | .error _ => false
  | .coreStore _ _ => false
  | .hostFlags _ _ => false

/-- What the host does to the running block: it runs a refresh or sets its flags (60_exceptions.md R358, after its
table). -/
def hostAction (a : Action) : Bool :=
  match a with
  | .op _ => isRefresh a
  | .coreStore _ _ => false
  | .hostFlags _ _ => true

/-- When a refresh may run: "only between steps (20_memory.md rule R79) and only when `iof.refresh_pending > 0`"
(44_video_decoder.md R282, 70_reset_and_hazards.md R377). -/
def refreshAllowed (s : State) : Bool := !s.insideStep && decide (0 < s.iof.refreshPending)

/-- Whether an event has to wait for the end of a step: a refresh that may not run yet, since only the vertical phase of a
step makes a tick, and the host's flags inside a step (60_exceptions.md R358; log 29, 35). -/
def mustWait (a : Action) (s : State) : Bool :=
  match a with
  | .op _ => isRefresh a && !refreshAllowed s
  | .coreStore _ _ => false
  | .hostFlags _ _ => s.insideStep

/-- Whether an event lies inside a step that only a STEP ends: an access, a store or an acknowledge of the core, or a
clocked unit asked for by name (43_io_dispatch.md R261, R262; log 35). -/
def beginsStep : Action → Bool
  | .op r =>
    match decode r with
    | .ok (.step _) => false
    | .ok i => !isVideo i
    | .error _ => false
  | .coreStore _ _ => true
  | .hostFlags _ _ => false

/-- An event admitted: the host's answers for it, and the step it lies inside. -/
def admitEvent (e : Event) (s : State) : State :=
  (admitAnswers e.answers s).withInsideStep (s.insideStep || beginsStep e.action)

/-- After a STEP operation the step is over (43_io_dispatch.md R261; log 32). -/
def afterOperation (i : Instr) (t : State) : State :=
  match i with
  | .step _ => endStep t
  | _ => t

/-- One operation and what the machine adds to it. -/
def runOperation (i : Instr) (s : State) : Answer :=
  match exec i s with
  | .next t => .next (afterOperation i t)
  | .fault r => .fault r
  | .refused r => .refused r

/-- What one event does. -/
def runAction (a : Action) (s : State) : Answer :=
  match a with
  | .op r =>
    match decode r with
    | .ok i => runOperation i s
    | .error e => .refused (.noOperation e)
  | .coreStore addr b => .next (coreStore addr b s)
  | .hostFlags running controlMode => .next (s.withHost { s.host with running := running, controlMode := controlMode })

/-- One step of the machine: the oldest event, which waits if it is the host's and may not be carried out yet; nothing when
no agent asks for anything (60_exceptions.md R351: the block's state stands still). -/
def runNext (s : State) : Answer :=
  match s.inbox with
  | [] => .next s
  | e :: rest =>
    if mustWait e.action s then .next (holdEvent e (s.withInbox rest))
    else runAction e.action (admitEvent e (s.withInbox rest))

/-- A request put where the next step takes it, its host answers unconstrained. -/
def placeRequest (r : Request) (s : State) : State := s.withInbox ({ action := .op r, answers := none } :: s.inbox)

end Sys2Proof.Machine
end

