-- ==== Sys2Proof/Machine/Step.lean ====
section
/-! DEFINITION. The step of the machine, and the placing of a word of the opcode table as the next request. -/

namespace Sys2Proof.Machine

/-- One step: the oldest queued event is carried out. -/
def step (s : State) : Host.Outcome State Fault Refusal := runNext s

/-- The state with a word of the opcode table as the request the next step takes; a word of another size is no
request, and the state is unchanged. -/
def State.withFetchWord (s : State) (nbits w : Nat) : State :=
  match tableRequest nbits w with
  | some r => placeRequest r s
  | none => s

end Sys2Proof.Machine
end

