-- ==== Sys2Proof/Safety.lean ====
section
/-! DEFINITION. The terms claims are made in: sequences of operations, the invariants of the block, which agent
invokes an operation, what the contract of an operation asks, and who may write which state element. -/

namespace Sys2Proof.Machine

/-! ## Sequences -/

/-- Operations carried out one after the other. -/
def execAll : List Instr → State → Answer
  | [], s => .next s
  | i :: rest, s =>
    match exec i s with
    | .next t => execAll rest t
    | .fault r => .fault r
    | .refused r => .refused r

/-- What a sequence of calls of `advance` gives: the signal, how many calls flipped it, how many made it rise. -/
structure AdvanceCount where
  signal : Signal
  flips : Nat
  rises : Nat
  deriving DecidableEq, Repr

/-- A signal advanced by each delta in turn (40_signal_generator.md R144). -/
def advanceAll : Signal → List Nat → AdvanceCount
  | g, [] => { signal := g, flips := 0, rises := 0 }
  | g, d :: rest =>
    let a := g.advance d
    let r := advanceAll a.signal rest
    { signal := r.signal, flips := r.flips + a.toggled.toNat, rises := r.rises + a.rose.toNat }

/-- The twenty bits of an address, bit 19 first (20_memory.md R74b). -/
def addressBits (a : BitVec 20) : List Bool := (List.range 20).map fun k => a.getLsbD (19 - k)

/-! ## Operations by name -/

/-- The operation of a command and a data bit (30_encoding.md R104). -/
def commandInstr (cmd : NvrCommand) (din : Bool) : Instr :=
  match cmd with
  | .standby => .nvrStandby
  | .acceptAddr => .nvrAcceptAddr din
  | .erase => .nvrErase
  | .acceptData => .nvrAcceptData din
  | .write => .nvrWrite
  | .read => .nvrRead
  | .shiftOut => .nvrShiftOut
  | .unused => .nvrUnused

/-- The operation a decoded A2 operation is (30_encoding.md R116). -/
def a2Instr : A2Op → Instr
  | .scrollLo k => .a2ScrollLo k
  | .scrollHi k => .a2ScrollHi k
  | .blinkToggle => .a2BlinkToggle
  | .reverseOn => .a2ReverseOn
  | .reverseOff => .a2ReverseOff
  | .baseUnderline => .a2BaseUnderline
  | .baseReverse => .a2BaseReverse
  | .nop => .a2Nop

/-- The operation a decoded C2 operation is (30_encoding.md R117). -/
def c2Instr : C2Op → Instr
  | .cols80 => .c2Cols80
  | .cols132 => .c2Cols132
  | .hz60 => .c2Hz60
  | .hz50 => .c2Hz50

/-! ## Invariants -/

/-- The invariant every step keeps: canonical memory (log 8), the vector at its fallback while nothing is pending
(60_exceptions.md R345), a configuration as 00_scope.md R7 demands, the scroll latch in its width (10_state.md R42),
between steps nothing serviced (log 32, DEDUCED from 60_exceptions.md R343 and 43_io_dispatch.md R261) and nothing left
waiting but refreshes with no tick pending (log 29, from 44_video_decoder.md R282), and only requests of the host wait
(log 35, from 20_memory.md R79 (d)). -/
abbrev State.Inv (s : State) : Prop :=
  Memory.wf s.mem ∧ (s.iof.intPending = false → s.iof.intVector = s.cfg.vecFallback) ∧ s.cfg.WF ∧
  s.disp.scrollLatch < 2 ^ s.cfg.scrollLatchBits ∧
  (s.insideStep = false → s.iof.servicedThisStep = false ∧
    ∀ e ∈ s.held, isRefresh e.action = true ∧ s.iof.refreshPending = 0) ∧
  ∀ e ∈ s.held, hostAction e.action = true

/-- Operations that an agent outside the block invokes (00_scope.md R13, 60_exceptions.md R358): port accesses and the
step by the core, its acknowledge, the host's refresh. The others are invoked by these. -/
def externalInstr : Instr → Bool
  | .in00 | .out00 _ | .in01 | .out01 _ | .out02 _ | .in42 | .out42 _ | .out62 _ | .in82 | .out82 _ => true
  | .outA2 _ | .outC2 _ | .inOther _ | .outOther _ _ => true
  | .step _ | .irqAck | .vidRefresh => true
  | _ => false

/-- An event that asks for no operation, or for one an outside agent invokes. -/
def externalAction : Action → Bool
  | .op r =>
    match decode r with
    | .ok i => externalInstr i
    | .error _ => true
  | .coreStore _ _ => true
  | .hostFlags _ _ => true

/-- What couples registers of different units as long as only outside agents invoke operations: the scan-line periods
are never reprogrammed (40_signal_generator.md R150), the vertical period is the one the 50 Hz flag names (10_state.md
R50), the baud period is that of the baud register or still that of reset, the two column flags agree (R251, R252), and
the mode-select phase is that of construction or of a RESET command (10_state.md R29). -/
abbrev State.Coupled (s : State) : Prop :=
  s.sig.lba4.periodHalf = s.cfg.lba4Period / 2 ∧
  s.sig.lba7.periodHalf = s.cfg.lba7Period / 2 ∧
  s.sig.vsync.periodHalf = (if s.disp.refresh50hz then s.cfg.vsyncPeriod50 else s.cfg.vsyncPeriod60) / 2 ∧
  (s.sig.baud.periodHalf = baudPeriod s.cfg s.iof.baudReg / 2 ∨
    (s.iof.baudReg = 0 ∧ s.sig.baud.periodHalf = s.cfg.baudResetPeriod / 2)) ∧
  s.ser.columnsWide = s.disp.columns132 ∧
  (s.ser.modeSelectMode = true → s.ser.command = 0 ∨ s.ser.command.getLsbD 6 = true)

/-! ## The contract of an operation -/

/-- What the spec asks of the agent that invokes an operation: an acknowledge only of a pending request
(60_exceptions.md R341), a refresh only between steps and when a tick is pending (44_video_decoder.md R282; log 29,
35). -/
def inContract (i : Instr) (s : State) : Bool :=
  match i with
  | .irqAck => s.iof.intPending
  | .vidRefresh => refreshAllowed s
  | _ => true

/-- The next queued event, if any, is an operation in its contract or no operation at all. -/
def State.nextInContract (s : State) : Bool :=
  match s.inbox with
  | [] => true
  | e :: _ =>
    match e.action with
    | .op r =>
      match decode r with
      | .ok i => inContract i s
      | .error _ => false
    | .coreStore _ _ => true
    | .hostFlags _ _ => true

/-! ## Who may write what (10_state.md section 8, and R45, R51, R11, R78; the rest is the model's own) -/

/-- A state element, or a group of elements with the same writers. -/
inductive Element
  | sigPhase (x : SigId)
  | sigPeriod (x : SigId)
  | nvrLatch
  | nvrAddress
  | nvrData
  | nvrContents
  | nvrOut
  | nvrLastWrite
  | serControl
  | serChannel
  | serRxByte
  | serRxReady
  | serXoff
  | serColumnsWide
  | iofBaudReg
  | iofInterrupt
  | iofRefreshPending
  | iofServiced
  | dispBrightness
  | dispA2
  | dispC2
  | hostControlMode
  | hostRunning
  | hostPacing
  | memory
  | config
  | queue
  deriving DecidableEq, Repr

/-- An element holds the same in two states. -/
def sameElement : Element → State → State → Prop
  | .sigPhase x, s, t =>
    (t.sig.get x).ticks = (s.sig.get x).ticks ∧ (t.sig.get x).value = (s.sig.get x).value
  | .sigPeriod x, s, t => (t.sig.get x).periodHalf = (s.sig.get x).periodHalf
  | .nvrLatch, s, t => t.nvr.latch = s.nvr.latch
  | .nvrAddress, s, t => t.nvr.addressReg = s.nvr.addressReg
  | .nvrData, s, t => t.nvr.dataReg = s.nvr.dataReg
  | .nvrContents, s, t => t.nvr.contents = s.nvr.contents
  | .nvrOut, s, t => t.nvr.out = s.nvr.out
  | .nvrLastWrite, s, t => t.nvr.lastWrite = s.nvr.lastWrite
  | .serControl, s, t =>
    t.ser.mode = s.ser.mode ∧ t.ser.command = s.ser.command ∧ t.ser.modeSelectMode = s.ser.modeSelectMode
  | .serChannel, s, t => t.ser.channel = s.ser.channel
  | .serRxByte, s, t => t.ser.rxByte = s.ser.rxByte
  | .serRxReady, s, t => t.ser.rxReady = s.ser.rxReady
  | .serXoff, s, t => t.ser.xoff = s.ser.xoff
  | .serColumnsWide, s, t => t.ser.columnsWide = s.ser.columnsWide
  | .iofBaudReg, s, t => t.iof.baudReg = s.iof.baudReg
  | .iofInterrupt, s, t => t.iof.intPending = s.iof.intPending ∧ t.iof.intVector = s.iof.intVector
  | .iofRefreshPending, s, t => t.iof.refreshPending = s.iof.refreshPending
  | .iofServiced, s, t => t.iof.servicedThisStep = s.iof.servicedThisStep
  | .dispBrightness, s, t => t.disp.brightness = s.disp.brightness
  | .dispA2, s, t =>
    t.disp.blinkFf = s.disp.blinkFf ∧ t.disp.scrollLatch = s.disp.scrollLatch ∧ t.disp.baseAttr = s.disp.baseAttr ∧
      t.disp.screenReverse = s.disp.screenReverse
  | .dispC2, s, t =>
    t.disp.columns132 = s.disp.columns132 ∧ t.disp.refresh50hz = s.disp.refresh50hz ∧
      t.disp.interlace = s.disp.interlace
  | .hostControlMode, s, t => t.host.controlMode = s.host.controlMode
  | .hostRunning, s, t => t.host.running = s.host.running
  | .hostPacing, s, t => t.host.pacingTicks = s.host.pacingTicks
  | .memory, s, t => ∀ a, memRead t a = memRead s a
  | .config, s, t => t.cfg = s.cfg
  | .queue, s, t =>
    t.inbox = s.inbox ∧ t.inputs = s.inputs ∧ t.draws = s.draws ∧ t.insideStep = s.insideStep ∧ t.held = s.held

/-- The operations that decode from port 0xA2, and that port's write. -/
def isA2 : Instr → Bool
  | .outA2 _ | .a2ScrollLo _ | .a2ScrollHi _ | .a2BlinkToggle | .a2ReverseOn | .a2ReverseOff => true
  | .a2BaseUnderline | .a2BaseReverse => true
  | _ => false

/-- The operations that decode from port 0xC2 and set the columns, and that port's write. -/
def isC2Columns : Instr → Bool
  | .outC2 _ | .c2Cols80 | .c2Cols132 => true
  | _ => false

/-- The operations that decode from port 0xC2 and set the refresh rate, and that port's write. -/
def isC2Rate : Instr → Bool
  | .outC2 _ | .c2Hz60 | .c2Hz50 => true
  | _ => false

/-- An NVRAM clock, or the peripheral phase that may cause one. -/
def clocksNvr : Instr → Bool
  | .nvrClk | .step _ => true
  | _ => false

/-- The writers of an element: the table of 10_state.md section 8 (for the serviced flag R51 and R341, for the host's flags
and counter R45, R263 and R347, for memory R11 and R78; configuration and queue are the model's own, logs 1, 3, 6, 28, 35),
with the operations that invoke the ones it names (`OUT 0x01` is `SER.WMODE` or `SER.WCMD`, `NVR.CLK`
and `STEP` run the latched command, and so on). -/
def mayWrite : Element → Instr → Bool
  | .sigPhase x, i =>
    match i with
    | .sigAdv y _ => decide (x = y)
    | .step _ => true
    | _ => false
  | .sigPeriod x, i =>
    match i with
    | .sigSetp y _ => decide (x = y)
    | .out02 _ => decide (x = .baud)
    | j => decide (x = .vsync) && isC2Rate j
  | .nvrLatch, i =>
    match i with
    | .out62 _ => true
    | _ => false
  | .nvrAddress, i =>
    match i with
    | .nvrAcceptAddr _ => true
    | j => clocksNvr j
  | .nvrData, i =>
    match i with
    | .nvrAcceptData _ | .nvrRead | .nvrShiftOut => true
    | j => clocksNvr j
  | .nvrContents, i =>
    match i with
    | .nvrErase | .nvrWrite => true
    | j => clocksNvr j
  | .nvrOut, i =>
    match i with
    | .nvrShiftOut => true
    | j => clocksNvr j
  | .nvrLastWrite, i =>
    match i with
    | .nvrWrite => true
    | j => clocksNvr j
  | .serControl, i =>
    match i with
    | .out01 _ | .serWmode _ | .serWcmd _ => true
    | _ => false
  | .serChannel, i =>
    match i with
    | .out01 _ | .serWcmd _ | .out00 _ | .serWdata _ | .serClk | .step _ => true
    | _ => false
  | .serRxByte, i =>
    match i with
    | .serClk | .step _ => true
    | _ => false
  | .serRxReady, i =>
    match i with
    | .serClk | .step _ | .in00 | .serRdata => true
    | _ => false
  | .serXoff, i =>
    match i with
    | .out00 _ | .serWdata _ => true
    | _ => false
  | .serColumnsWide, i =>
    match i with
    | .serWcols _ => true
    | j => isC2Columns j
  | .iofBaudReg, i =>
    match i with
    | .out02 _ => true
    | _ => false
  | .iofInterrupt, i =>
    match i with
    | .irqRaise _ | .irqAck | .irqFallback | .step _ => true
    | _ => false
  | .iofRefreshPending, i =>
    match i with
    | .step _ | .vidRefresh => true
    | _ => false
  | .iofServiced, i =>
    match i with
    | .irqAck => true
    | _ => false
  | .dispBrightness, i =>
    match i with
    | .out42 _ => true
    | _ => false
  | .dispA2, i => isA2 i
  | .dispC2, i => isC2Columns i || isC2Rate i
  | .hostControlMode, i =>
    match i with
    | .step _ => true
    | _ => false
  | .hostPacing, i =>
    match i with
    | .step _ => true
    | _ => false
  | .hostRunning, _ => false
  | .memory, _ => false
  | .config, _ => false
  | .queue, _ => false

end Sys2Proof.Machine
end

