-- ==== Sys2Proof/Certificates/Slice0/Obligations.lean ====
section
/-! DEFINITION. The statements for the provers, from the numbered rules of the spec. A statement holds for every
configuration, since the configuration is a field of the state; where it needs the default of a parameter it says so
in a hypothesis. Every result statement is an equation for the whole next state, so it is the frame as well. -/

open Sys2Proof Sys2Proof.Machine

/-! ## Signal generator -/

/-- R141, R142: `SIG.ADV` adds the delta, flips once at most when the half period is reached (at equality, the spec's
D1), subtracts the half period at a flip, returns (toggled, rose) with rose a flip to true (the spec's D3), and changes
nothing else. -/
def Obligations.SigAdvFlipsOnceAndKeepsExcess : Prop :=
  ∀ (x : SigId) (d : Nat) (s : State),
    exec (.sigAdv x d) s = .next { s with
      sig := s.sig.put x
        (if (s.sig.get x).ticks + d ≥ (s.sig.get x).periodHalf then
          { periodHalf := (s.sig.get x).periodHalf
            ticks := (s.sig.get x).ticks + d - (s.sig.get x).periodHalf
            value := !(s.sig.get x).value }
        else
          { periodHalf := (s.sig.get x).periodHalf
            ticks := (s.sig.get x).ticks + d
            value := (s.sig.get x).value })
      result :=
        if (s.sig.get x).ticks + d ≥ (s.sig.get x).periodHalf then .pulses true (!(s.sig.get x).value)
        else .pulses false false }

/-- R143: `SIG.SETP` sets the half period to p / 2 rounded down and keeps accumulator, level and everything else; if the
accumulator is already at the new half period, the next advance flips whatever its delta. -/
def Obligations.SigSetpKeepsAccumulator : Prop :=
  ∀ (x : SigId) (p : Nat) (s : State),
    exec (.sigSetp x p) s = .next { s with
      sig := s.sig.put x
        { periodHalf := p / 2, ticks := (s.sig.get x).ticks, value := (s.sig.get x).value } } ∧
    (p / 2 ≤ (s.sig.get x).ticks → ∀ (d : Nat) (t : State), exec (.sigSetp x p) s = .next t →
      ∃ u, exec (.sigAdv x d) t = .next u ∧ (u.sig.get x).value = !(s.sig.get x).value)

/-- R144: in steady state (no delta above the half period, accumulator below it) the flips of a sequence of calls are
the whole half periods of the accumulated ticks, the accumulator is the remainder, the half period is kept, and from a
low level the rising transitions are (flips + 1) / 2. -/
def Obligations.SigSteadyStateCounts : Prop :=
  ∀ (g : Signal) (ds : List Nat), 1 ≤ g.periodHalf → g.ticks < g.periodHalf → (∀ d ∈ ds, d ≤ g.periodHalf) →
    (advanceAll g ds).flips = (g.ticks + ds.sum) / g.periodHalf ∧
    (advanceAll g ds).signal.ticks = (g.ticks + ds.sum) % g.periodHalf ∧
    (advanceAll g ds).signal.periodHalf = g.periodHalf ∧
    (g.value = false → (advanceAll g ds).rises = ((advanceAll g ds).flips + 1) / 2)

/-- R142, R145: a divider loses no cycles and flips at most once a call, whatever the deltas; with a half period of zero
every call flips and the accumulator only grows. -/
def Obligations.SigNeverLosesCycles : Prop :=
  ∀ (g : Signal) (ds : List Nat),
    (advanceAll g ds).signal.ticks + g.periodHalf * (advanceAll g ds).flips = g.ticks + ds.sum ∧
    (advanceAll g ds).flips ≤ ds.length ∧
    (g.periodHalf = 0 →
      (advanceAll g ds).flips = ds.length ∧ (advanceAll g ds).signal.ticks = g.ticks + ds.sum)

/-! ## NVRAM -/

/-- R161: an NVRAM clock executes the latched command with the latched data bit, once; under the default latch layout
and code map (the spec's D7, D8) that is the operation the latch byte decodes to. -/
def Obligations.NvrClkRunsLatchedCommand : Prop :=
  ∀ s : State,
    (∃ t, exec .nvrClk s = .next t ∧
      exec (commandInstr (nvrCommandOf s.cfg (nvrCode s.cfg s.nvr.latch)) (nvrDataBit s.cfg s.nvr.latch)) s = .next t) ∧
    (s.cfg.latch = .standard → s.cfg.nvrCommands = standardCommands →
      exec .nvrClk s = exec (decodeNvrLatch s.nvr.latch) s)

/-- R163, R171: STANDBY and UNUSED have no effect. -/
def Obligations.NvrStandbyAndUnusedDoNothing : Prop :=
  ∀ s : State, exec .nvrStandby s = .next s ∧ exec .nvrUnused s = .next s

/-- R164: ACCEPT_ADDR shifts the data bit into bit 0 of the address register and loses what leaves bit 19; after twenty
clocks the register holds exactly the twenty bits presented, the first in bit 19, whatever it held. -/
def Obligations.NvrAddressShiftsAndLoadsInTwentyClocks : Prop :=
  ∀ (a : BitVec 20) (din : Bool) (s : State),
    exec (.nvrAcceptAddr din) s = .next { s with
      nvr := { s.nvr with addressReg := BitVec.ofNat 20 (2 * s.nvr.addressReg.toNat + din.toNat) } } ∧
    execAll ((addressBits a).map .nvrAcceptAddr) s = .next { s with nvr := { s.nvr with addressReg := a } }

/-- ACCEPT_DATA doubles the data register, adds the data bit, and loses what overflows fourteen bits (the direction is
the spec's inference and the mask at every shift its D11; log 22). -/
def Obligations.NvrAcceptDataShiftsLeftOr : Prop :=
  ∀ (din : Bool) (s : State),
    exec (.nvrAcceptData din) s = .next { s with
      nvr := { s.nvr with dataReg := BitVec.ofNat 14 (2 * s.nvr.dataReg.toNat + din.toNat) } }

/-- R162: the decoded address is ten times the tens digit plus the ones digit, each digit the highest clear bit of its
decade of the register, or 0 where the decade has no clear bit (that case is the spec's D9). -/
def Obligations.NvrDecodeAddrTakesHighestClearBit : Prop :=
  ∀ a : BitVec 20, ∃ tens ones : Nat,
    (decodeAddr a).val = tens * 10 + ones ∧ tens < 10 ∧ ones < 10 ∧
    (∀ i, ones < i → i < 10 → a.getLsbD i = true) ∧
    (a.getLsbD ones = false ∨ (ones = 0 ∧ ∀ i < 10, a.getLsbD i = true)) ∧
    (∀ i, tens < i → i < 10 → a.getLsbD (10 + i) = true) ∧
    (a.getLsbD (10 + tens) = false ∨ (tens = 0 ∧ ∀ i < 10, a.getLsbD (10 + i) = true))

/-- R105, R172: presenting the code of cell 10t + o with ACCEPT_ADDR and then READ loads the data register from that
cell and changes only the two registers. -/
def Obligations.NvrReadProtocolReachesCell : Prop :=
  ∀ (tens ones : Fin 10) (cell : Fin 100) (s : State), cell.val = 10 * tens.val + ones.val →
    execAll ((addressBits (canonicalAddr tens ones)).map .nvrAcceptAddr ++ [.nvrRead]) s = .next { s with
      nvr := { s.nvr with addressReg := canonicalAddr tens ones, dataReg := s.nvr.contents.get cell } }

/-- R165, R169, R170: ERASE sets the addressed cell to all ones and leaves the previous-write record (the spec's D10,
log 22); READ loads the data register from the cell; SHIFT_OUT puts bit 13 on the output line and shifts a zero in, within
fourteen bits (the zero is R170's inference, the mask the spec's D11, log 22). None of them persists anything. -/
def Obligations.NvrEraseReadShiftOut : Prop :=
  ∀ s : State,
    exec .nvrErase s = .next { s with
      nvr := { s.nvr with contents := s.nvr.contents.set (decodeAddr s.nvr.addressReg).val 0x3FFF } } ∧
    exec .nvrRead s = .next { s with
      nvr := { s.nvr with dataReg := s.nvr.contents.get (decodeAddr s.nvr.addressReg) } } ∧
    exec .nvrShiftOut s = .next { s with
      nvr := { s.nvr with
        out := decide (s.nvr.dataReg.toNat ≥ 8192)
        dataReg := BitVec.ofNat 14 (2 * s.nvr.dataReg.toNat) } }

/-- R167, R168, R331: WRITE does nothing if (address, data) is the pair it last stored (the spec's D10); else it stores the
cell and the pair, and hands the whole table to the host if the address is at least the threshold; a file the host cannot
write is logged and changes nothing else. -/
def Obligations.NvrWriteStoresUnlessRepeated : Prop :=
  ∀ s : State,
    exec .nvrWrite s = .next (
      if s.nvr.lastWrite = some (decodeAddr s.nvr.addressReg, s.nvr.dataReg) then s
      else { s with
        nvr := { s.nvr with
          contents := s.nvr.contents.set (decodeAddr s.nvr.addressReg).val s.nvr.dataReg
          lastWrite := some (decodeAddr s.nvr.addressReg, s.nvr.dataReg) }
        events :=
          if (decodeAddr s.nvr.addressReg).val ≥ s.cfg.nvrPersistMin then
            (if s.inputs.nvrSaveOk = true then [] else [.log .nvrSaveFailed]) ++
              .nvrSave (s.nvr.contents.set (decodeAddr s.nvr.addressReg).val s.nvr.dataReg) :: s.events
          else s.events })

/-- R380, R384: a second WRITE changes nothing (so persists nothing), and WRITE, ERASE, identical WRITE leaves the cell
erased. -/
def Obligations.NvrWriteRepeatsAndErasedRewriteIsLost : Prop :=
  ∀ s t u : State, exec .nvrWrite s = .next t → exec .nvrErase t = .next u →
    exec .nvrWrite t = .next t ∧ exec .nvrWrite u = .next u ∧
    u.nvr.contents.get (decodeAddr s.nvr.addressReg) = 0x3FFF

/-- R170, R172: the k-th of a run of SHIFT_OUT clocks presents bit 13 - k of the data register, from the fifteenth on
the line is low, and only the data register and the line change. -/
def Obligations.NvrShiftOutPresentsHighBitFirst : Prop :=
  ∀ (k : Nat) (s : State),
    execAll (List.replicate (k + 1) .nvrShiftOut) s = .next { s with
      nvr := { s.nvr with
        out := decide (k < 14) && s.nvr.dataReg.getLsbD (13 - k)
        dataReg := s.nvr.dataReg <<< (k + 1) } }

/-- R108, R168: saving a table and loading the text gives the table back, from a file of exactly 500 bytes, and
whatever follows the hundredth token is ignored (the spec's D12). -/
def Obligations.NvrFileRoundTrip : Prop :=
  ∀ (cells : Vector CellWord 100) (junk : List Byte),
    (renderNvrFile cells).length = 500 ∧ parseNvrFile (renderNvrFile cells ++ junk) = some cells

/-- R371, R334: the load takes the whole default image when there is no file, when the file has fewer than a hundred
tokens, or when one of the first hundred is not four hexadecimal digits; no cell is then taken from the file. -/
def Obligations.NvrLoadFallsBackWhole : Prop :=
  ∀ (image : Vector CellWord 100) (text : List Byte),
    loadNvr image none = image ∧
    ((splitTokens [] text).length < 100 → loadNvr image (some text) = image) ∧
    (∀ (k : Nat) (token : List Byte), k < 100 → (splitTokens [] text)[k]? = some token → parseToken token = none →
      loadNvr image (some text) = image)

/-! ## Serial controller -/

/-- R191: in the mode-select phase the byte is stored as the mode, uninterpreted, and the normal phase begins. -/
def Obligations.SerModeByteIsStoredOnly : Prop :=
  ∀ (v : Byte) (s : State),
    exec (.serWmode v) s = .next { s with ser := { s.ser with mode := v, modeSelectMode := false } }

/-- R192, R194, R204: a command is latched, bit 6 returns to the mode-select phase, bits 0 and 2 open a closed channel
(failure leaves it closed and logs, the spec's D43), bit 1 clear closes an open one, both tests on the state before the
write (the spec's D13). -/
def Obligations.SerCommandOpensAndHangsUp : Prop :=
  ∀ (v : Byte) (s : State),
    exec (.serWcmd v) s = .next (
      let latched := { s.ser with command := v, modeSelectMode := v.getLsbD 6 || s.ser.modeSelectMode }
      match s.ser.channel with
      | .closed =>
        if v.getLsbD 0 = true ∧ v.getLsbD 2 = true then
          match s.inputs.ptyOpen with
          | some h => { s with
              ser := { latched with channel := .opened h }
              events := .ptyOpen 24 80 :: s.events }
          | none => { s with
              ser := latched
              events := .log .ptyOpenFailed :: .ptyOpen 24 80 :: s.events }
        else { s with ser := latched }
      | .opened h =>
        if v.getLsbD 1 = true then { s with ser := latched }
        else { s with
          ser := { latched with channel := .closed }
          events := .ptyClose h :: s.events })

/-- R195, R196, R197: the interrupt character flushes an open channel, XOFF and XON set and clear the flag whatever the
channel, every other byte is handed to an open channel (an error closes it) and is discarded by a closed one (the
spec's D18). -/
def Obligations.SerDataByteByClass : Prop :=
  ∀ (v : Byte) (s : State),
    exec (.serWdata v) s = .next (
      if v.toNat < 0x20 ∧ v = s.cfg.intrChar then
        match s.ser.channel with
        | .opened h => { s with events := .ptyFlush h :: s.events }
        | .closed => s
      else if v = s.cfg.xoffChar then { s with ser := { s.ser with xoff := true } }
      else if v = s.cfg.xonChar then { s with ser := { s.ser with xoff := false } }
      else
        match s.ser.channel with
        | .opened h =>
          if s.inputs.ptyWriteOk = true then { s with events := .ptyWrite h v :: s.events }
          else { s with
            ser := { s.ser with channel := .closed }
            events := .ptyClose h :: .ptyWrite h v :: s.events }
        | .closed => s)

/-- R198, R199: a data read returns the received byte and clears the ready flag (the spec's D15); a status read has no
side effect, always has bit 7 set, and under the default layout (the spec's D14) is 0xC3 with a byte pending, else
0xC1. -/
def Obligations.SerReadsDataAndStatus : Prop :=
  ∀ s : State,
    exec .serRdata s = .next { s with
      ser := { s.ser with rxReady := false }
      result := .byte s.ser.rxByte } ∧
    ∃ b : Byte, exec .serRstat s = .next { s with result := .byte b } ∧ b.getLsbD 7 = true ∧
      (s.cfg.status = standardStatus → b = if s.ser.rxReady = true then 0xC3 else 0xC1)

/-- R200, R201, R202: with the channel closed, a byte unread or the flow control off, SER.CLK calls nobody and returns
false; else it reads once: data is stored with the ready flag and returns true, a failure polls the child, and an exited
child closes the channel and returns true (the spec's D16). -/
def Obligations.SerClockPollsOnce : Prop :=
  ∀ s : State,
    exec .serClk s = .next (
      match s.ser.channel with
      | .closed => { s with result := .flag false }
      | .opened h =>
        if s.ser.rxReady = true ∨ s.ser.xoff = true then { s with result := .flag false }
        else
          match s.inputs.ptyRead with
          | some b => { s with
              ser := { s.ser with rxByte := b, rxReady := true }
              events := .ptyRead h :: s.events
              result := .flag true }
          | none =>
            if s.inputs.childExited = true then { s with
              ser := { s.ser with channel := .closed }
              events := .ptyClose h :: .childExited h :: .ptyRead h :: s.events
              result := .flag true }
            else { s with
              events := .childExited h :: .ptyRead h :: s.events
              result := .flag false })

/-- R203: the width flag and, with the channel open, the pty window change only on an actual change. -/
def Obligations.SerColumnsResizeOnChange : Prop :=
  ∀ (w : Bool) (s : State),
    exec (.serWcols w) s = .next (
      if w ≠ s.ser.columnsWide then
        match s.ser.channel with
        | .opened h => { s with
            ser := { s.ser with columnsWide := w }
            events := .ptyResize h 24 (if w = true then 132 else 80) :: s.events }
        | .closed => { s with ser := { s.ser with columnsWide := w } }
      else s)

/-- R205: the first write to port 0x01 in the mode-select phase is the mode byte and spawns nothing, whatever its bits;
the second, if it sets transmit and receive enable, opens the channel. -/
def Obligations.SerFirstWriteIsModeSecondSpawns : Prop :=
  ∀ (v w : Byte) (h : Nat) (s : State), s.ser.modeSelectMode = true → s.ser.channel = .closed →
    s.inputs.ptyOpen = some h → w.getLsbD 0 = true → w.getLsbD 2 = true →
    ∃ t u, exec (.out01 v) s = .next t ∧ t.ser.mode = v ∧ t.ser.channel = .closed ∧ t.events = s.events ∧
      exec (.out01 w) t = .next u ∧ u.ser.command = w ∧ u.ser.channel = .opened h

/-! ## Ports -/

/-- R231 to R234: ports 0x00 and 0x01 are the serial controller's data, status and control operations, the control write
by the phase before it; a RESET command makes the next write a mode write. -/
def Obligations.SerialPortsSelectSerialOperations : Prop :=
  ∀ (v : Byte) (s : State),
    (∃ t, exec .in00 s = .next t ∧ exec .serRdata s = .next t) ∧
    (∃ t, exec (.out00 v) s = .next t ∧ exec (.serWdata v) s = .next t) ∧
    (∃ t, exec .in01 s = .next t ∧ exec .serRstat s = .next t) ∧
    (∃ t, exec (.out01 v) s = .next t ∧
      (s.ser.modeSelectMode = true → exec (.serWmode v) s = .next t) ∧
      (s.ser.modeSelectMode = false → exec (.serWcmd v) s = .next t) ∧
      (s.ser.modeSelectMode = false → v.getLsbD 6 = true → ∀ w, exec (.out01 w) t = exec (.serWmode w) t))

/-- R235, R148: a write of port 0x02 stores the whole byte and sets the half period of the baud signal from the divisor
of its low nibble; accumulator and level are kept. -/
def Obligations.BaudWriteReprogramsBySource : Prop :=
  ∀ (v : Byte) (s : State) (i : Fin 16), i.val = v.toNat % 16 →
    exec (.out02 v) s = .next { s with
      iof := { s.iof with baudReg := v }
      sig := { s.sig with
        baud := { s.sig.baud with periodHalf := s.cfg.baudDivisor.get i * s.cfg.baudScale / 2 } } } ∧
    (s.cfg.baudScale = 160 →
      s.cfg.baudDivisor.get i * s.cfg.baudScale / 2 = s.cfg.baudDivisor.get i * 80)

/-- R236, R114: a read of port 0x42 queries the keyboard and changes nothing else; under the default layout (the spec's
D21) its eight bits are the seven sources, the two option bits active low, and bit 6 zero. -/
def Obligations.FlagsByteCollectsSevenSources : Prop :=
  ∀ s : State, ∃ b : Byte,
    exec .in42 s = .next { s with events := .kbdReady :: s.events, result := .byte b } ∧
    (s.cfg.flags = standardFlags →
      b.getLsbD 0 = true ∧ b.getLsbD 1 = !s.cfg.avoEnabled ∧ b.getLsbD 2 = !s.cfg.graphicsPresent ∧
      b.getLsbD 3 = s.cfg.stpPresent ∧ b.getLsbD 4 = s.sig.vsync.value ∧ b.getLsbD 5 = s.nvr.out ∧
      b.getLsbD 6 = false ∧ b.getLsbD 7 = s.inputs.kbdReady)

/-- R237 to R240: brightness and latch writes store the byte and execute nothing, a latched command being executed at an
NVRAM clock that follows; the keyboard ports hand the access to the external keyboard and leave the block as it is. -/
def Obligations.PortsThatStoreOrForward : Prop :=
  ∀ (v : Byte) (s : State),
    exec (.out42 v) s = .next { s with disp := { s.disp with brightness := v } } ∧
    exec (.out62 v) s = .next { s with nvr := { s.nvr with latch := v } } ∧
    (∀ t, exec (.out62 v) s = .next t →
      exec .nvrClk t = exec (commandInstr (nvrCommandOf s.cfg (nvrCode s.cfg v)) (nvrDataBit s.cfg v)) t) ∧
    exec .in82 s = .next { s with events := .kbdReadLatch :: s.events, result := .byte s.inputs.kbdLatch } ∧
    exec (.out82 v) s = .next { s with events := .kbdWriteStatus v :: s.events }

/-- R255, R256, R331: an access of an unlisted port logs and is otherwise a no-op; a read returns an unconstrained byte
(the spec's D20, log 6, log 34). -/
def Obligations.UnlistedPortsOnlyLog : Prop :=
  ∀ (p v : Byte) (s : State),
    exec (.inOther p) s = .next { s with
      events := .log (.unlistedRead p) :: s.events
      result := .byte s.inputs.unlistedByte } ∧
    exec (.outOther p v) s = .next { s with events := .log (.unlistedWrite p v) :: s.events }

/-- R241, R250: writes of ports 0xA2 and 0xC2 perform the operations their byte decodes to, in order. -/
def Obligations.ConfigurationPortsRunDecodedOperations : Prop :=
  ∀ (v : Byte) (s : State),
    (∃ t, exec (.outA2 v) s = .next t ∧ execAll ((a2OpsOf s.cfg v).map a2Instr) s = .next t) ∧
    (∃ t, exec (.outC2 v) s = .next t ∧ execAll ((c2OpsOf s.cfg v).map c2Instr) s = .next t)

/-- R116, R117: the default decodes (the spec's D24, D25): the low nibble of an A2 byte and bits 5:4 of a C2 byte select
one operation, the other bits are ignored. -/
def Obligations.DefaultDecodesOfConfigurationBytes : Prop :=
  ∀ b : Byte,
    A2Op.ofByte b =
      (if b.toNat % 16 < 4 then [.scrollLo (BitVec.ofNat 2 b.toNat)]
      else if b.toNat % 16 < 8 then [.scrollHi (BitVec.ofNat 2 b.toNat)]
      else if b.toNat % 16 = 8 then [.blinkToggle]
      else if b.toNat % 16 = 10 then [.reverseOn]
      else if b.toNat % 16 = 11 then [.reverseOff]
      else if b.toNat % 16 = 12 then [.baseUnderline]
      else if b.toNat % 16 = 13 then [.baseReverse]
      else [.nop]) ∧
    C2Op.ofByte b =
      (if b.toNat / 16 % 4 = 0 then [.cols80]
      else if b.toNat / 16 % 4 = 1 then [.cols132]
      else if b.toNat / 16 % 4 = 2 then [.hz60]
      else [.hz50])

/-- R242 to R249: each operation of port 0xA2 writes its own display elements and nothing else. That the scroll latch is
loaded in two halves and that the base-attribute operations clear the blink flip-flop is the default decode's (the spec's
D24, log 15); the latch's width is SCROLL_LATCH_BITS, four by default (the spec's D46, log 21), and holds what it can. -/
def Obligations.A2OperationsWriteDisplay : Prop :=
  ∀ (k : BitVec 2) (s : State),
    exec (.a2ScrollLo k) s = .next { s with
      disp := { s.disp with
        scrollLatch := (s.disp.scrollLatch / 4 % 4 * 4 + k.toNat) % 2 ^ s.cfg.scrollLatchBits } } ∧
    exec (.a2ScrollHi k) s = .next { s with
      disp := { s.disp with
        scrollLatch := (k.toNat * 4 + s.disp.scrollLatch % 4) % 2 ^ s.cfg.scrollLatchBits } } ∧
    exec .a2BlinkToggle s = .next { s with disp := { s.disp with blinkFf := !s.disp.blinkFf } } ∧
    exec .a2ReverseOn s = .next { s with disp := { s.disp with screenReverse := true } } ∧
    exec .a2ReverseOff s = .next { s with disp := { s.disp with screenReverse := false } } ∧
    exec .a2BaseUnderline s = .next { s with disp := { s.disp with baseAttr := .underline, blinkFf := false } } ∧
    exec .a2BaseReverse s = .next { s with disp := { s.disp with baseAttr := .reverse, blinkFf := false } } ∧
    exec .a2Nop s = .next s ∧
    exec .a2NopReserved s = .next s

/-- R251 to R254: the column operations set the columns flag and interlace (the default decode's, the spec's D25) and
then the pty width; the rate operations set the 50 Hz flag, clear interlace and reprogram the vertical signal. -/
def Obligations.C2OperationsSetColumnsAndRate : Prop :=
  ∀ s : State,
    (∃ t, exec .c2Cols80 s = .next t ∧
      exec (.serWcols false) { s with disp := { s.disp with columns132 := false, interlace := true } } = .next t) ∧
    (∃ t, exec .c2Cols132 s = .next t ∧
      exec (.serWcols true) { s with disp := { s.disp with columns132 := true, interlace := true } } = .next t) ∧
    exec .c2Hz60 s = .next { s with
      disp := { s.disp with refresh50hz := false, interlace := false }
      sig := { s.sig with vsync := { s.sig.vsync with periodHalf := s.cfg.vsyncPeriod60 / 2 } } } ∧
    exec .c2Hz50 s = .next { s with
      disp := { s.disp with refresh50hz := true, interlace := false }
      sig := { s.sig with vsync := { s.sig.vsync with periodHalf := s.cfg.vsyncPeriod50 / 2 } } }

/-! ## Interrupts -/

/-- R336: a raise sets the pending flag and merges its source into the vector; under the default merge (the spec's D22)
that is OR, and raising the same source again changes nothing. -/
def Obligations.IrqRaiseSetsPendingAndMerges : Prop :=
  ∀ (src : IrqSource) (s : State),
    exec (.irqRaise src) s = .next { s with
      iof := { s.iof with intPending := true, intVector := mergeVector s.cfg s.iof.intVector src } } ∧
    (s.cfg.vecMerge = .orIn →
      mergeVector s.cfg s.iof.intVector .serial = s.iof.intVector ||| s.cfg.vecSerial ∧
      mergeVector s.cfg s.iof.intVector .vertical = s.iof.intVector ||| s.cfg.vecVertical ∧
      ∀ t, exec (.irqRaise src) s = .next t → exec (.irqRaise src) t = .next t)

/-- R341, U7: an acknowledge returns the vector, clears the request and the vector (the spec's D44) and marks the step
serviced; with nothing pending it is refused. -/
def Obligations.IrqAckReturnsVectorOrIsRefused : Prop :=
  ∀ s : State,
    (s.iof.intPending = true → exec .irqAck s = .next { s with
      iof := { s.iof with intPending := false, intVector := s.cfg.vecFallback, servicedThisStep := true }
      result := .byte s.iof.intVector }) ∧
    (s.iof.intPending = false → exec .irqAck s = .refused .acknowledgeNotPending)

/-- R344: the fallback vector is substituted in a step that serviced nothing, and with the guard (the spec's D22) only
while nothing is pending. -/
def Obligations.IrqFallbackSubstitutes : Prop :=
  ∀ s : State,
    exec .irqFallback s = .next (
      if s.iof.servicedThisStep = false ∧ (s.cfg.fallbackGuarded = false ∨ s.iof.intPending = false) then
        { s with iof := { s.iof with intVector := s.cfg.vecFallback } }
      else s)

/-- R330: every operation completes on every state, but for an acknowledge of nothing, which is refused (R341, the spec's
U7; log 17). -/
def Obligations.OnlyEmptyAcknowledgeIsRefused : Prop :=
  ∀ (i : Instr) (s : State),
    (i = .irqAck ∧ s.iof.intPending = false ∧ exec i s = .refused .acknowledgeNotPending) ∨
    ∃ t, exec i s = .next t

/-! ## The step -/

/-- R262, R142: a STEP completes; every signal is advanced by the same delta exactly once; the pacing counter grows by it
unless the display is blanked (R263). -/
def Obligations.StepAdvancesEverySignalOnce : Prop :=
  ∀ (d : Nat) (s : State), ∃ t, exec (.step d) s = .next t ∧
    (∀ (x : SigId), ∃ u, exec (.sigAdv x d) s = .next u ∧ t.sig.get x = u.sig.get x) ∧
    t.host.pacingTicks = s.host.pacingTicks + (if isBlanked s.cfg s.disp.brightness = true then 0 else d) ∧
    t.disp = s.disp ∧ t.mem = s.mem ∧ t.cfg = s.cfg ∧ t.result = s.result ∧ t.inbox = s.inbox

/-- R265 to R268: in a STEP the NVRAM is clocked exactly when LBA7 rises, the serial controller exactly when the baud
signal rises, the keyboard exactly when LBA4 rises, and the refresh counter counts the rises of vsync; an interrupt is
pending after it if it was before, if the serial clock returned true or if vsync rose. The calls a STEP makes are those of
the units it clocks and no others, serial controller first, then keyboard, then NVRAM (the order is the spec's D23). -/
def Obligations.StepClocksUnitsOnRisingTransitions : Prop :=
  ∀ (d : Nat) (s t c n : State), exec (.step d) s = .next t → exec .serClk s = .next c → exec .nvrClk s = .next n →
    t.nvr = (if sigRises .lba7 d s = true then n.nvr else s.nvr) ∧
    t.ser = (if sigRises .baud d s = true then c.ser else s.ser) ∧
    t.iof.refreshPending = s.iof.refreshPending + (if sigRises .vsync d s = true then 1 else 0) ∧
    (t.iof.intPending = true ↔ s.iof.intPending = true ∨ sigRises .vsync d s = true ∨
      (sigRises .baud d s = true ∧ c.result = .flag true)) ∧
    (∃ serialCalls nvrCalls : List HostEvent,
      c.events = serialCalls ++ s.events ∧ n.events = nvrCalls ++ s.events ∧
      t.events = (if sigRises .lba7 d s = true then nvrCalls else []) ++
        ((if sigRises .lba4 d s = true then [.kbdClock] else []) ++
          ((if sigRises .baud d s = true then serialCalls else []) ++ s.events))) ∧
    t.iof.baudReg = s.iof.baudReg ∧ t.iof.servicedThisStep = s.iof.servicedThisStep ∧
    t.host.running = s.host.running

/-- R336, R338, R344: under the default merge and guard, from a state whose vector is the fallback one while nothing is
pending, a STEP ORs into the vector exactly the sources it raised, serial and vertical merging. -/
def Obligations.StepMergesRaisedSources : Prop :=
  ∀ (d : Nat) (s t c : State), s.cfg.vecMerge = .orIn → s.cfg.fallbackGuarded = true →
    (s.iof.intPending = false → s.iof.intVector = s.cfg.vecFallback) →
    exec (.step d) s = .next t → exec .serClk s = .next c →
    t.iof.intVector = s.iof.intVector |||
      (if sigRises .baud d s = true ∧ c.result = .flag true then s.cfg.vecSerial else 0) |||
      (if sigRises .vsync d s = true then s.cfg.vecVertical else 0)

/-- R337: every request sets the flag; a request stays pending until the core acknowledges it, and no other operation
clears it, no port write and no step among them. -/
def Obligations.OnlyAcknowledgeClearsRequest : Prop :=
  (∀ (src : IrqSource) (s : State), ∃ t, exec (.irqRaise src) s = .next t ∧ t.iof.intPending = true) ∧
  ∀ (i : Instr) (s t : State), exec i s = .next t → s.iof.intPending = true → i ≠ .irqAck → t.iof.intPending = true

/-- R347: control mode is forced by a STEP whose serial phase clocks the controller, the clock being true and the channel
closed after it, and by nothing else; no operation clears it or touches the run flag. -/
def Obligations.ControlModeForcedOnlyBySerialPhase : Prop :=
  ∀ (i : Instr) (s t : State), exec i s = .next t →
    t.host.running = s.host.running ∧
    (t.host.controlMode = true ↔ s.host.controlMode = true ∨
      ∃ d c, i = .step d ∧ sigRises .baud d s = true ∧ exec .serClk s = .next c ∧ c.result = .flag true ∧
        c.ser.channel = .closed)

/-- R11, R78: no operation writes the core's memory, so every address reads as before; of the block's units a refresh
changes the tick counter only, which it clears (the spec's D35, log 27). Nor does an operation write the model's own
fields: the configuration (log 3), the host's answers (log 6), the queue (log 1). -/
def Obligations.NoOperationWritesMemory : Prop :=
  ∀ (i : Instr) (s t : State), exec i s = .next t →
    (∀ a, memRead t a = memRead s a) ∧ t.mem = s.mem ∧ t.cfg = s.cfg ∧ t.inputs = s.inputs ∧ t.inbox = s.inbox ∧
    (i = .vidRefresh → t.sig = s.sig ∧ t.nvr = s.nvr ∧ t.ser = s.ser ∧ t.disp = s.disp ∧ t.host = s.host ∧
      t.iof = { s.iof with refreshPending := 0 })

/-- Who may write what: an operation that is no writer of an element leaves it alone, for every element and every
operation. The writers are the table of 10_state.md section 8; for the elements it has no row for: the serviced flag is
the acknowledge's (R51, R341), control mode and the pacing counter are a STEP's and the run flag nobody's (R45, R263,
R347), and the core's memory nobody's (R11, R78). The configuration (log 3) and the queue with the host's answers, the draw
counter, the step under way and what waits for its end (logs 1, 6, 28, 35) are the model's own: no operation writes them.
What an operation returns and calls (log 7) is no element here. -/
def Obligations.OnlyWritersChangeElements : Prop :=
  ∀ (e : Element) (i : Instr) (s t : State), exec i s = .next t → mayWrite e i = false → sameElement e s t

/-! ## Video decoder -/

/-- R284, R119: a line scan completes; it finds the first terminator at or after the start within the bound, wrapping
modulo 2^16, and renders every byte before it; without one in the bound the line is unterminated. -/
def Obligations.VidLineScansToFirstTerminator : Prop :=
  ∀ (a : Addr) (s : State),
    (∃ (cells : List GlyphCell) (term : Addr),
      exec (.vidLine a) s = .next { s with result := .line cells term } ∧
      cells.length < s.cfg.maxLineBytes ∧ term = a + BitVec.ofNat 16 cells.length ∧ memRead s term = 0x7F ∧
      ∀ k < cells.length,
        memRead s (a + BitVec.ofNat 16 k) ≠ 0x7F ∧
        cells[k]? = some (vidChar s (a + BitVec.ofNat 16 k) (memRead s (a + BitVec.ofNat 16 k)))) ∨
    (exec (.vidLine a) s = .next { s with result := .unterminated } ∧
      ∀ k < s.cfg.maxLineBytes, memRead s (a + BitVec.ofNat 16 k) ≠ 0x7F)

/-- R285, R126: the descriptor after a terminator gives the next line's address (bank base plus a twelve-bit offset, high
nibble first, the spec's D28, modulo 2^16), the attribute of its two-bit code and the scroll flag. -/
def Obligations.VidDescAssemblesNextLine : Prop :=
  ∀ (term : Addr) (s : State) (d0 d1 : Nat), d0 = (memRead s (term + 1)).toNat → d1 = (memRead s (term + 2)).toNat →
    ∃ (next : Addr) (attr : LineAttr) (scroll : Bool) (code : Fin 4),
      exec (.vidDesc term) s = .next { s with result := .descriptor next attr scroll } ∧
      next.toNat = ((if d0 / 16 % 2 = 1 then s.cfg.bankBase1 else s.cfg.bankBase0).toNat + d0 % 16 * 256 + d1) % 65536 ∧
      code.val = d0 / 32 % 4 ∧ attr = s.cfg.lineAttrs.get code ∧ (scroll = true ↔ d0 ≥ 128)

/-- R289 to R292: with the enhanced-attribute option bit 7 is inverse and the four attributes are the clear bits of the
attribute byte; without it there is no attribute byte, and the base attribute says whether bit 7 is inverse or
underline; screen reverse inverts inverse last (the spec's D32). -/
def Obligations.VidCharRendersAttributes : Prop :=
  ∀ (a : Addr) (b : Byte) (s : State), ∃ c : GlyphCell,
    exec (.vidChar a b) s = .next { s with result := .cell c } ∧ c.addr = a ∧ c.code.toNat = b.toNat % 128 ∧
    (s.cfg.avoEnabled = true →
      c.inverse = xor (b.getLsbD 7) s.disp.screenReverse ∧
      c.blink = !(memRead s (a + s.cfg.attrOffset)).getLsbD s.cfg.attrBlinkBit.val ∧
      c.underline = !(memRead s (a + s.cfg.attrOffset)).getLsbD s.cfg.attrUnderlineBit.val ∧
      c.bold = !(memRead s (a + s.cfg.attrOffset)).getLsbD s.cfg.attrBoldBit.val ∧
      c.alt = !(memRead s (a + s.cfg.attrOffset)).getLsbD s.cfg.attrAltBit.val) ∧
    (s.cfg.avoEnabled = false →
      c.blink = false ∧ c.bold = false ∧ c.alt = false ∧
      (s.disp.baseAttr = .underline → c.underline = b.getLsbD 7 ∧ c.inverse = s.disp.screenReverse) ∧
      (s.disp.baseAttr = .reverse → c.underline = false ∧ c.inverse = xor (b.getLsbD 7) s.disp.screenReverse))

/-- R293 to R295: the second table when the international set is active and the surface supports it, else the control
table below 32, else the code itself. -/
def Obligations.VidCharChoosesGlyph : Prop :=
  ∀ (a : Addr) (b : Byte) (s : State), ∃ c : GlyphCell,
    exec (.vidChar a b) s = .next { s with result := .cell c } ∧
    (∀ i : Fin 128, i.val = b.toNat % 128 → s.inputs.intlActive = true → s.inputs.surfaceLatin = true →
      c.glyph = s.cfg.latinGlyph.get i) ∧
    (∀ i : Fin 32, i.val = b.toNat % 128 → ¬(s.inputs.intlActive = true ∧ s.inputs.surfaceLatin = true) →
      c.glyph = s.cfg.ctrlGlyph.get i) ∧
    (32 ≤ b.toNat % 128 → ¬(s.inputs.intlActive = true ∧ s.inputs.surfaceLatin = true) →
      c.glyph = .direct (BitVec.ofNat 7 b.toNat))

/-- R296: a setup overlay is recognised only on the setup line, with the scroll latch zero, by the first nine memory
bytes of the line equal to a marker (the spec's D34). -/
def Obligations.VidSetupRecognisesMarkers : Prop :=
  ∀ (index : Nat) (cells : List GlyphCell) (s : State), ∃ o : Overlay,
    exec (.vidSetup index cells) s = .next { s with result := .overlay o } ∧
    (index ≠ s.cfg.setupLineIndex ∨ s.disp.scrollLatch ≠ 0 ∨ cells.length < 9 → o = .none) ∧
    (index = s.cfg.setupLineIndex → s.disp.scrollLatch = 0 → 9 ≤ cells.length →
      ((cells.take 9).map (fun c => memRead s c.addr) = s.cfg.setupAMarker.toList → o = .setupA) ∧
      ((cells.take 9).map (fun c => memRead s c.addr) ≠ s.cfg.setupAMarker.toList →
        ((cells.take 9).map (fun c => memRead s c.addr) = s.cfg.setupBMarker.toList → o = .setupB) ∧
        ((cells.take 9).map (fun c => memRead s c.addr) ≠ s.cfg.setupBMarker.toList → o = .none)))

/-- R282, R281: a refresh clears the tick counter (the spec's D35), decodes the frame of the walk and the display state,
hands it to the render surface, and writes nothing else. This is the operation's effect on every state (R330: every
operation is total); that R282's "only when" is a condition on the request, which the machine's step keeps, and no part of
the effect is the model's reading (log 29, DEDUCED). -/
def Obligations.VidRefreshReturnsFrame : Prop :=
  ∀ s : State,
    exec .vidRefresh s = .next { s with
      iof := { s.iof with refreshPending := 0 }
      result := .frame
        { lines := (walk s).1, overlay := (walk s).2, blinkFf := s.disp.blinkFf, columns132 := s.disp.columns132,
          brightness := s.disp.brightness, scrollLatch := s.disp.scrollLatch, screenReverse := s.disp.screenReverse }
      events := .frame
        { lines := (walk s).1, overlay := (walk s).2, blinkFf := s.disp.blinkFf, columns132 := s.disp.columns132,
          brightness := s.disp.brightness, scrollLatch := s.disp.scrollLatch, screenReverse := s.disp.screenReverse }
        :: s.events }

/-- R283, R287, R288: the walk renders at most the maximum number of lines, from the video base; each line is the scan of
its own start, and each next line starts where the descriptor before it points and has that descriptor's attribute and
scroll flag (the spec's D29), which is not its predecessor's own start. The overlay is the first result other than none
of the setup test over the frame's lines in order (R283, R296), and none if there is none. -/
def Obligations.WalkFollowsDescriptorsWithinBound : Prop :=
  ∀ (s : State),
    (walk s).1.length ≤ s.cfg.maxLines ∧
    (∀ l, (walk s).1[0]? = some l →
      l.start = s.cfg.videoBase ∧ l.attr = s.cfg.firstLineAttr ∧ l.scroll = s.cfg.firstLineScroll) ∧
    (∀ (k : Nat) (l : RenderedLine), (walk s).1[k]? = some l →
      l.index = k ∧ ∃ term, vidLine s l.start = some (l.cells, term) ∧
      ∀ m, (walk s).1[k + 1]? = some m →
        m.start = (vidDesc s term).next ∧ m.attr = (vidDesc s term).attr ∧ m.scroll = (vidDesc s term).scroll ∧
        m.start ≠ l.start) ∧
    (walk s).2 = (((walk s).1.map fun l => vidSetup s l.index l.cells).find? fun o => o != .none).getD .none

/-- R286: a line whose descriptor points back to its own start is rendered and is the last of the frame. R287: a frame
ends for no other reason than that, the line bound (the meaning of "exceeded" is the spec's D31), or a line with no
terminator within MAX_LINE_BYTES (the spec's D31, log 27). -/
def Obligations.WalkStopsAtSelfLoopOrBound : Prop :=
  ∀ (s : State),
    (∀ (k : Nat) (l : RenderedLine) (term : Addr), (walk s).1[k]? = some l → vidLine s l.start = some (l.cells, term) →
      (vidDesc s term).next = l.start → (walk s).1.length = k + 1) ∧
    ((walk s).1 = [] → s.cfg.maxLines = 0 ∨ vidLine s s.cfg.videoBase = none) ∧
    (∀ (k : Nat) (l : RenderedLine) (term : Addr), (walk s).1.length = k + 1 → (walk s).1[k]? = some l →
      vidLine s l.start = some (l.cells, term) →
      (vidDesc s term).next = l.start ∨ k + 1 = s.cfg.maxLines ∨ vidLine s (vidDesc s term).next = none)

/-! ## Encodings -/

/-- Decoding the encoding of a well-formed operation gives it back, for every operation and every operand, whatever
bytes follow. -/
def Obligations.DecodeEncodeRoundTrip : Prop :=
  ∀ i : Instr, i.wellFormed = true →
    decode (encode i) = .ok i ∧
    ∀ (f : Format) (bs rest : List Byte), encode i = .bytes f bs → decodeBytes f (bs ++ rest) = .ok (i, rest)

/-- R102: what decodes is well formed; every PORT word with its data byte is the encoding of what it decodes to, so no
port access is lost or read as another's. -/
def Obligations.PortWordsDecodeOneToOne : Prop :=
  (∀ (r : Request) (i : Instr), decode r = .ok i → i.wellFormed = true) ∧
  ∀ p v : Byte,
    (∃ i, decode (.bytes .port [p, 0]) = .ok i ∧ encode i = .bytes .port [p, 0]) ∧
    (∃ i, decode (.bytes .port [p, 1, v]) = .ok i ∧ encode i = .bytes .port [p, 1, v])

/-- R102 to R104, R109, R110, R112, R116, R117, R121: a few words of each of the eight formats decode to the operation the
spec's tables give them. The default layouts are the spec's D7, D8, D24, D25, the port directions its D19, the packing of
the PORT word its D37; that a PORT word is two bytes and a data byte, and that a CHAR byte is followed by its address, is
the model's (log 14). -/
def Obligations.TableWordsDecodeAsWritten : Prop :=
  decode (.bytes .port [0x42, 0]) = .ok .in42 ∧
  decode (.bytes .port [0x62, 1, 0x0A]) = .ok (.out62 0x0A) ∧
  decode (.bytes .port [0x62, 0]) = .ok (.inOther 0x62) ∧
  decode (.bytes .nvrLatch [0x03]) = .ok (.nvrAcceptAddr true) ∧
  decode (.bytes .nvrLatch [0xFC]) = .ok .nvrShiftOut ∧
  decode (.bytes .a2 [0x06]) = .ok (.a2ScrollHi 2) ∧
  decode (.bytes .a2 [0xFA]) = .ok .a2ReverseOn ∧
  decode (.bytes .c2 [0x30]) = .ok .c2Hz50 ∧
  decode (.bytes .serMode [0x4E]) = .ok (.serWmode 0x4E) ∧
  decode (.bytes .serCmd [0x27]) = .ok (.serWcmd 0x27) ∧
  decode (.bytes .serData [0x6C]) = .ok (.serWdata 0x6C) ∧
  decode (.bytes .char [0xC1, 0x05, 0x20]) = .ok (.vidChar 0x2005 0xC1)

/-- R120: the two bytes of a line descriptor and its fields determine each other. -/
def Obligations.DescriptorFieldsRoundTrip : Prop :=
  (∀ f : DescFields, decodeDesc (encodeDesc f).1 (encodeDesc f).2 = f) ∧
  ∀ d0 d1 : Byte, encodeDesc (decodeDesc d0 d1) = (d0, d1)

/-! ## The machine -/

/-- A step carries out the oldest event of the queue (the queue is the model's, log 1) with the event's host answers, free
ones if it gives none (log 6, 28), and moves past it; with an empty queue nothing happens. An operation request runs exactly
the decoded operation; a request that is no operation is refused (log 14). After a STEP the next instruction phase begins
(R261; that the flag is cleared there is log 32). A store of the core writes its byte, which is then read back, and no other
address (R83; in the ROM region by log 9). Whatever the core or a clocked unit does makes the step one that only a STEP
ends. A refresh runs only between steps and with a tick pending, the host's flags are set only between steps, and each
waits for the end of a step otherwise (R79, R282, R358; logs 29, 35). -/
def Obligations.StepRunsDecodedInstruction : Prop :=
  ∀ s : State,
    (s.inbox = [] → step s = .next s) ∧
    ∀ (e : Event) (rest : List Event), s.inbox = e :: rest →
      (((∃ r, e.action = .op r ∧ decode r = .ok .vidRefresh) ∧ (s.insideStep = true ∨ s.iof.refreshPending = 0) ∨
          (∃ running controlMode, e.action = .hostFlags running controlMode) ∧ s.insideStep = true) →
        step s = .next { s with inbox := rest, held := s.held ++ [e] }) ∧
      ∃ u : State,
        u = { s with
          inbox := rest
          inputs := e.answers.getD (Config.freeInputs (s.draws + 1))
          draws := s.draws + (if e.answers = none then 1 else 0) } ∧
        (∀ (r : Request) (i : Instr), e.action = .op r → decode r = .ok i → isVideo i = false → (∀ d, i ≠ .step d) →
          step s = exec i { u with insideStep := true }) ∧
        (∀ (r : Request) (i : Instr), e.action = .op r → decode r = .ok i → isVideo i = true →
          (i = .vidRefresh → s.insideStep = false ∧ 0 < s.iof.refreshPending) → step s = exec i u) ∧
        (∀ (r : Request) (d : Nat) (t : State), e.action = .op r → decode r = .ok (.step d) →
          exec (.step d) u = .next t →
          step s = .next { t with
            iof := { t.iof with servicedThisStep := false }
            insideStep := false
            inbox := s.held ++ rest
            held := [] }) ∧
        (∀ (r : Request) (why : DecodeError), e.action = .op r → decode r = .error why →
          step s = .refused (.noOperation why)) ∧
        (∀ (a : Addr) (b : Byte), e.action = .coreStore a b →
          ∃ t, step s = .next t ∧ t = { u with insideStep := true, mem := Memory.write s.mem a.toNat b } ∧
            (Memory.wf s.mem → memRead t a = b) ∧ ∀ c, c ≠ a → memRead t c = memRead s c) ∧
        (∀ running controlMode : Bool, e.action = .hostFlags running controlMode → s.insideStep = false →
          step s = .next { u with host := { u.host with running := running, controlMode := controlMode } })

/-- Every step keeps the invariant. By the spec: the vector is at its fallback while nothing is pending (R345, the
spec's inference, by its D44; here whatever the merge and the guard), and the scroll latch is in its width (R42, the
parameter of D46). By the model's choice: memory is in its canonical form
(log 8), and between steps nothing is serviced (log 32, DEDUCED: R343 and R261 clear the flag where the next instruction
phase starts, and the model has that be the end of STEP), nothing waits but refreshes with no tick pending (log 29, from
R282), and only requests of the host wait at all (log 35, from R79). The configuration stays well formed (log 3). -/
def Obligations.StepKeepsInvariant : Prop :=
  ∀ s t : State, s.Inv → step s = .next t → t.Inv

/-- The invariant and the coupling of the units hold at reset, whatever the configuration (if it is well formed), the file
and the host's flags. The reset values it rests on are D36's (log 10), and memory's canonical form is the model's (log 8). -/
def Obligations.ResetMeetsInvariants : Prop :=
  (∀ (c : Config) (file : Option (List Byte)) (running controlMode : Bool), c.WF →
    (State.resetWith c file running controlMode).Inv ∧ (State.resetWith c file running controlMode).Coupled) ∧
  State.reset.Inv ∧ State.reset.Coupled

/-- R50, R371, R373, element by element. The document's four: the serial controller is in the mode-select phase, there is no
shell, the pty is at 80 columns, and the cells are those of a file that parses, else the default image and a log line. The
latch holds a byte of STANDBY with data bit 0, if the layout has one; the scan-line periods are the configuration's; the
run flags are the host's (R370); every other element is at the spec's D36 or D10 value (log 10). Memory is a draw (R372,
log 8), and the model's own fields hold nothing (log 1, 7, 28, 35). -/
def Obligations.ResetValuesOfTheTable : Prop :=
  ∀ (c : Config) (file : Option (List Byte)) (running controlMode : Bool) (s : State), c.WF →
    s = State.resetWith c file running controlMode →
    (s.ser.modeSelectMode = true ∧ s.ser.channel = .closed ∧ s.ser.columnsWide = false) ∧
    (∀ text cells, file = some text → parseNvrFile text = some cells → s.nvr.contents = cells ∧ s.events = []) ∧
    ((file = none ∨ ∃ text, file = some text ∧ parseNvrFile text = none) →
      s.nvr.contents = c.nvrDefaultImage ∧ s.events = [.log .nvrLoadFailed]) ∧
    ((c.latch = .standard ∨ ∃ b, nvrCommandOf c (nvrCode c b) = .standby ∧ nvrDataBit c b = false) →
      nvrCommandOf c (nvrCode c s.nvr.latch) = .standby ∧ nvrDataBit c s.nvr.latch = false) ∧
    (s.nvr.addressReg = 0 ∧ s.nvr.dataReg = 0 ∧ s.nvr.out = false ∧ s.nvr.lastWrite = none) ∧
    (s.ser.mode = 0 ∧ s.ser.command = 0 ∧ s.ser.rxByte = 0 ∧ s.ser.rxReady = false ∧ s.ser.xoff = false) ∧
    s.iof =
      { baudReg := 0, intPending := false, intVector := c.vecFallback, refreshPending := 0, servicedThisStep := false } ∧
    s.disp =
      { brightness := 0, blinkFf := false, columns132 := false, refresh50hz := false, interlace := false, scrollLatch := 0,
        baseAttr := .reverse, screenReverse := false } ∧
    s.host = { controlMode := controlMode, running := running, pacingTicks := 0 } ∧
    (∀ x, (s.sig.get x).ticks = 0 ∧ (s.sig.get x).value = false) ∧
    s.sig.lba4.periodHalf = c.lba4Period / 2 ∧ s.sig.lba7.periodHalf = c.lba7Period / 2 ∧
    s.sig.vsync.periodHalf = c.vsyncPeriod60 / 2 ∧ s.sig.baud.periodHalf = c.baudResetPeriod / 2 ∧
    s.cfg = c ∧ (∀ a, memRead s a = Config.memInit a.toNat) ∧
    s.inbox = [] ∧ s.held = [] ∧ s.insideStep = false ∧ s.draws = 0 ∧ s.result = .none

/-- R150, R50, R29, R251, R252: as long as only outside agents invoke operations, every step keeps the scan-line periods,
ties the vertical period to the 50 Hz flag, the baud period to the baud register, the two column flags to each other, and
the mode-select phase to construction or a RESET command. -/
def Obligations.ExternalStepsKeepUnitsCoupled : Prop :=
  ∀ s t : State, s.Coupled → (∀ e ∈ s.inbox, externalAction e.action = true) → step s = .next t → t.Coupled
end

