-- ==== Sys2Proof/Laws/Memory.lean ====
section
/-! SUPPORT. Reads after writes, and that every memory operation keeps the canonical form. -/

namespace Sys2Proof.Machine

theorem Memory.lookup_of_lt {m : List Host.Cell} {a : Nat} (h : ∀ x ∈ m, a < x.1) : Memory.lookup m a = none := by
  induction m with
  | nil => rfl
  | cons c rest ih =>
    have hc : a < c.1 := h c (by simp)
    have : c.1 ≠ a := by omega
    simp [Memory.lookup, this]
    exact ih fun x hx => h x (by simp [hx])

theorem Memory.mem_erase {m : List Host.Cell} {a : Nat} {x : Host.Cell} (h : x ∈ Memory.erase m a) : x ∈ m := by
  induction m with
  | nil => simp [Memory.erase] at h
  | cons c rest ih =>
    simp only [Memory.erase] at h
    split at h
    · simp [h]
    · rcases List.mem_cons.1 h with rfl | h'
      · simp
      · simp [ih h']

theorem Memory.mem_insert {m : List Host.Cell} {a : Nat} {v : Byte} {x : Host.Cell} (h : x ∈ Memory.insert m a v) :
    x = (a, v) ∨ x ∈ m := by
  induction m with
  | nil => simpa [Memory.insert] using h
  | cons c rest ih =>
    simp only [Memory.insert] at h
    split at h
    · simpa using h
    · split at h
      · rcases List.mem_cons.1 h with rfl | h'
        · simp
        · simp [h']
      · rcases List.mem_cons.1 h with rfl | h'
        · simp
        · rcases ih h' with rfl | h''
          · simp
          · simp [h'']

theorem Memory.lookup_erase_same {m : List Host.Cell} (hs : m.Pairwise fun x y => x.1 < y.1) (a : Nat) :
    Memory.lookup (Memory.erase m a) a = none := by
  induction m with
  | nil => rfl
  | cons c rest ih =>
    rw [List.pairwise_cons] at hs
    simp only [Memory.erase]
    split
    · rename_i h
      exact Memory.lookup_of_lt fun x hx => h ▸ hs.1 x hx
    · rename_i h
      simp [Memory.lookup, h, ih hs.2]

theorem Memory.lookup_erase_other {m : List Host.Cell} {a b : Nat} (h : a ≠ b) :
    Memory.lookup (Memory.erase m a) b = Memory.lookup m b := by
  induction m with
  | nil => rfl
  | cons c rest ih =>
    simp only [Memory.erase]
    split
    · rename_i hc
      have : c.1 ≠ b := by omega
      simp [Memory.lookup, this]
    · simp only [Memory.lookup]
      split
      · rfl
      · exact ih

theorem Memory.lookup_insert_same (m : List Host.Cell) (a : Nat) (v : Byte) :
    Memory.lookup (Memory.insert m a v) a = some v := by
  induction m with
  | nil => simp [Memory.insert, Memory.lookup]
  | cons c rest ih =>
    simp only [Memory.insert]
    split
    · simp [Memory.lookup]
    · split
      · simp [Memory.lookup]
      · rename_i h
        simp [Memory.lookup, h, ih]

theorem Memory.lookup_insert_other (m : List Host.Cell) {a b : Nat} (v : Byte) (h : a ≠ b) :
    Memory.lookup (Memory.insert m a v) b = Memory.lookup m b := by
  induction m with
  | nil => simp [Memory.insert, Memory.lookup, h]
  | cons c rest ih =>
    simp only [Memory.insert]
    split
    · simp [Memory.lookup, h]
    · split
      · rename_i hc
        have : c.1 ≠ b := by omega
        simp [Memory.lookup, h, this]
      · simp only [Memory.lookup]
        split
        · rfl
        · exact ih

/-- A read after a write to the same address gives the value written. -/
theorem Memory.read_write_same {m : List Host.Cell} (hm : Memory.wf m) (a : Nat) (v : Byte) :
    Memory.read (Memory.write m a v) a = v := by
  unfold Memory.read Memory.write
  split
  · rename_i h
    simp [Memory.lookup_erase_same hm.1, h]
  · simp [Memory.lookup_insert_same]

/-- A write leaves every other address alone. -/
theorem Memory.read_write_other (m : List Host.Cell) {a b : Nat} (v : Byte) (h : a ≠ b) :
    Memory.read (Memory.write m a v) b = Memory.read m b := by
  unfold Memory.read Memory.write
  split
  · rw [Memory.lookup_erase_other h]
  · rw [Memory.lookup_insert_other m v h]

theorem Memory.pairwise_erase {m : List Host.Cell} (hs : m.Pairwise fun x y => x.1 < y.1) (a : Nat) :
    (Memory.erase m a).Pairwise fun x y => x.1 < y.1 := by
  induction m with
  | nil => simp [Memory.erase]
  | cons c rest ih =>
    rw [List.pairwise_cons] at hs
    simp only [Memory.erase]
    split
    · exact hs.2
    · exact List.pairwise_cons.2 ⟨fun x hx => hs.1 x (Memory.mem_erase hx), ih hs.2⟩

theorem Memory.pairwise_insert {m : List Host.Cell} (hs : m.Pairwise fun x y => x.1 < y.1) (a : Nat) (v : Byte) :
    (Memory.insert m a v).Pairwise fun x y => x.1 < y.1 := by
  induction m with
  | nil => simp [Memory.insert]
  | cons c rest ih =>
    have hs' := List.pairwise_cons.1 hs
    simp only [Memory.insert]
    split
    · rename_i h
      refine List.pairwise_cons.2 ⟨fun x hx => ?_, hs⟩
      rcases List.mem_cons.1 hx with rfl | hx'
      · exact h
      · exact lt_trans h (hs'.1 x hx')
    · split
      · rename_i h
        exact List.pairwise_cons.2 ⟨fun x hx => h ▸ hs'.1 x hx, hs'.2⟩
      · rename_i h1 h2
        refine List.pairwise_cons.2 ⟨fun x hx => ?_, ih hs'.2⟩
        rcases Memory.mem_insert hx with rfl | hx'
        · show c.1 < a
          omega
        · exact hs'.1 x hx'

/-- A store inside the 64 KiB keeps the canonical form. -/
theorem Memory.wf_write {m : List Host.Cell} (hm : Memory.wf m) {a : Nat} (ha : a < 65536) (v : Byte) :
    Memory.wf (Memory.write m a v) := by
  unfold Memory.write
  split
  · exact ⟨Memory.pairwise_erase hm.1 a, fun x hx => hm.2 x (Memory.mem_erase hx)⟩
  · rename_i hv
    refine ⟨Memory.pairwise_insert hm.1 a v, fun x hx => ?_⟩
    rcases Memory.mem_insert hx with rfl | hx'
    · exact ⟨ha, hv⟩
    · exact hm.2 x hx'

theorem Memory.wf_nil : Memory.wf [] := ⟨List.Pairwise.nil, by simp⟩

/-- A store of the core keeps the canonical form. -/
theorem coreStore_wf {s : State} (h : Memory.wf s.mem) (a : Addr) (b : Byte) : Memory.wf (coreStore a b s).mem :=
  Memory.wf_write h a.isLt b

end Sys2Proof.Machine
end

