-- ==== Sys2Proof/Laws/State.lean ====
section
/-! SUPPORT. One lemma per field per update of the state, so that no proof unfolds a record update. -/

namespace Sys2Proof.Machine

@[simp] theorem State.withSig_cfg (s : State) (g : Signals) : (s.withSig g).cfg = s.cfg := rfl
@[simp] theorem State.withSig_sig (s : State) (g : Signals) : (s.withSig g).sig = g := rfl
@[simp] theorem State.withSig_nvr (s : State) (g : Signals) : (s.withSig g).nvr = s.nvr := rfl
@[simp] theorem State.withSig_ser (s : State) (g : Signals) : (s.withSig g).ser = s.ser := rfl
@[simp] theorem State.withSig_iof (s : State) (g : Signals) : (s.withSig g).iof = s.iof := rfl
@[simp] theorem State.withSig_disp (s : State) (g : Signals) : (s.withSig g).disp = s.disp := rfl
@[simp] theorem State.withSig_host (s : State) (g : Signals) : (s.withSig g).host = s.host := rfl
@[simp] theorem State.withSig_mem (s : State) (g : Signals) : (s.withSig g).mem = s.mem := rfl
@[simp] theorem State.withSig_inputs (s : State) (g : Signals) : (s.withSig g).inputs = s.inputs := rfl
@[simp] theorem State.withSig_draws (s : State) (g : Signals) : (s.withSig g).draws = s.draws := rfl
@[simp] theorem State.withSig_result (s : State) (g : Signals) : (s.withSig g).result = s.result := rfl
@[simp] theorem State.withSig_events (s : State) (g : Signals) : (s.withSig g).events = s.events := rfl
@[simp] theorem State.withSig_inbox (s : State) (g : Signals) : (s.withSig g).inbox = s.inbox := rfl
@[simp] theorem State.withSig_insideStep (s : State) (g : Signals) : (s.withSig g).insideStep = s.insideStep := rfl
@[simp] theorem State.withSig_held (s : State) (g : Signals) : (s.withSig g).held = s.held := rfl

@[simp] theorem State.withNvr_cfg (s : State) (n : Nvr) : (s.withNvr n).cfg = s.cfg := rfl
@[simp] theorem State.withNvr_sig (s : State) (n : Nvr) : (s.withNvr n).sig = s.sig := rfl
@[simp] theorem State.withNvr_nvr (s : State) (n : Nvr) : (s.withNvr n).nvr = n := rfl
@[simp] theorem State.withNvr_ser (s : State) (n : Nvr) : (s.withNvr n).ser = s.ser := rfl
@[simp] theorem State.withNvr_iof (s : State) (n : Nvr) : (s.withNvr n).iof = s.iof := rfl
@[simp] theorem State.withNvr_disp (s : State) (n : Nvr) : (s.withNvr n).disp = s.disp := rfl
@[simp] theorem State.withNvr_host (s : State) (n : Nvr) : (s.withNvr n).host = s.host := rfl
@[simp] theorem State.withNvr_mem (s : State) (n : Nvr) : (s.withNvr n).mem = s.mem := rfl
@[simp] theorem State.withNvr_inputs (s : State) (n : Nvr) : (s.withNvr n).inputs = s.inputs := rfl
@[simp] theorem State.withNvr_draws (s : State) (n : Nvr) : (s.withNvr n).draws = s.draws := rfl
@[simp] theorem State.withNvr_result (s : State) (n : Nvr) : (s.withNvr n).result = s.result := rfl
@[simp] theorem State.withNvr_events (s : State) (n : Nvr) : (s.withNvr n).events = s.events := rfl
@[simp] theorem State.withNvr_inbox (s : State) (n : Nvr) : (s.withNvr n).inbox = s.inbox := rfl
@[simp] theorem State.withNvr_insideStep (s : State) (n : Nvr) : (s.withNvr n).insideStep = s.insideStep := rfl
@[simp] theorem State.withNvr_held (s : State) (n : Nvr) : (s.withNvr n).held = s.held := rfl

@[simp] theorem State.withSer_cfg (s : State) (r : Ser) : (s.withSer r).cfg = s.cfg := rfl
@[simp] theorem State.withSer_sig (s : State) (r : Ser) : (s.withSer r).sig = s.sig := rfl
@[simp] theorem State.withSer_nvr (s : State) (r : Ser) : (s.withSer r).nvr = s.nvr := rfl
@[simp] theorem State.withSer_ser (s : State) (r : Ser) : (s.withSer r).ser = r := rfl
@[simp] theorem State.withSer_iof (s : State) (r : Ser) : (s.withSer r).iof = s.iof := rfl
@[simp] theorem State.withSer_disp (s : State) (r : Ser) : (s.withSer r).disp = s.disp := rfl
@[simp] theorem State.withSer_host (s : State) (r : Ser) : (s.withSer r).host = s.host := rfl
@[simp] theorem State.withSer_mem (s : State) (r : Ser) : (s.withSer r).mem = s.mem := rfl
@[simp] theorem State.withSer_inputs (s : State) (r : Ser) : (s.withSer r).inputs = s.inputs := rfl
@[simp] theorem State.withSer_draws (s : State) (r : Ser) : (s.withSer r).draws = s.draws := rfl
@[simp] theorem State.withSer_result (s : State) (r : Ser) : (s.withSer r).result = s.result := rfl
@[simp] theorem State.withSer_events (s : State) (r : Ser) : (s.withSer r).events = s.events := rfl
@[simp] theorem State.withSer_inbox (s : State) (r : Ser) : (s.withSer r).inbox = s.inbox := rfl
@[simp] theorem State.withSer_insideStep (s : State) (r : Ser) : (s.withSer r).insideStep = s.insideStep := rfl
@[simp] theorem State.withSer_held (s : State) (r : Ser) : (s.withSer r).held = s.held := rfl

@[simp] theorem State.withIof_cfg (s : State) (f : Iof) : (s.withIof f).cfg = s.cfg := rfl
@[simp] theorem State.withIof_sig (s : State) (f : Iof) : (s.withIof f).sig = s.sig := rfl
@[simp] theorem State.withIof_nvr (s : State) (f : Iof) : (s.withIof f).nvr = s.nvr := rfl
@[simp] theorem State.withIof_ser (s : State) (f : Iof) : (s.withIof f).ser = s.ser := rfl
@[simp] theorem State.withIof_iof (s : State) (f : Iof) : (s.withIof f).iof = f := rfl
@[simp] theorem State.withIof_disp (s : State) (f : Iof) : (s.withIof f).disp = s.disp := rfl
@[simp] theorem State.withIof_host (s : State) (f : Iof) : (s.withIof f).host = s.host := rfl
@[simp] theorem State.withIof_mem (s : State) (f : Iof) : (s.withIof f).mem = s.mem := rfl
@[simp] theorem State.withIof_inputs (s : State) (f : Iof) : (s.withIof f).inputs = s.inputs := rfl
@[simp] theorem State.withIof_draws (s : State) (f : Iof) : (s.withIof f).draws = s.draws := rfl
@[simp] theorem State.withIof_result (s : State) (f : Iof) : (s.withIof f).result = s.result := rfl
@[simp] theorem State.withIof_events (s : State) (f : Iof) : (s.withIof f).events = s.events := rfl
@[simp] theorem State.withIof_inbox (s : State) (f : Iof) : (s.withIof f).inbox = s.inbox := rfl
@[simp] theorem State.withIof_insideStep (s : State) (f : Iof) : (s.withIof f).insideStep = s.insideStep := rfl
@[simp] theorem State.withIof_held (s : State) (f : Iof) : (s.withIof f).held = s.held := rfl

@[simp] theorem State.withDisp_cfg (s : State) (d : Disp) : (s.withDisp d).cfg = s.cfg := rfl
@[simp] theorem State.withDisp_sig (s : State) (d : Disp) : (s.withDisp d).sig = s.sig := rfl
@[simp] theorem State.withDisp_nvr (s : State) (d : Disp) : (s.withDisp d).nvr = s.nvr := rfl
@[simp] theorem State.withDisp_ser (s : State) (d : Disp) : (s.withDisp d).ser = s.ser := rfl
@[simp] theorem State.withDisp_iof (s : State) (d : Disp) : (s.withDisp d).iof = s.iof := rfl
@[simp] theorem State.withDisp_disp (s : State) (d : Disp) : (s.withDisp d).disp = d := rfl
@[simp] theorem State.withDisp_host (s : State) (d : Disp) : (s.withDisp d).host = s.host := rfl
@[simp] theorem State.withDisp_mem (s : State) (d : Disp) : (s.withDisp d).mem = s.mem := rfl
@[simp] theorem State.withDisp_inputs (s : State) (d : Disp) : (s.withDisp d).inputs = s.inputs := rfl
@[simp] theorem State.withDisp_draws (s : State) (d : Disp) : (s.withDisp d).draws = s.draws := rfl
@[simp] theorem State.withDisp_result (s : State) (d : Disp) : (s.withDisp d).result = s.result := rfl
@[simp] theorem State.withDisp_events (s : State) (d : Disp) : (s.withDisp d).events = s.events := rfl
@[simp] theorem State.withDisp_inbox (s : State) (d : Disp) : (s.withDisp d).inbox = s.inbox := rfl
@[simp] theorem State.withDisp_insideStep (s : State) (d : Disp) : (s.withDisp d).insideStep = s.insideStep := rfl
@[simp] theorem State.withDisp_held (s : State) (d : Disp) : (s.withDisp d).held = s.held := rfl

@[simp] theorem State.withHost_cfg (s : State) (h : HostSide) : (s.withHost h).cfg = s.cfg := rfl
@[simp] theorem State.withHost_sig (s : State) (h : HostSide) : (s.withHost h).sig = s.sig := rfl
@[simp] theorem State.withHost_nvr (s : State) (h : HostSide) : (s.withHost h).nvr = s.nvr := rfl
@[simp] theorem State.withHost_ser (s : State) (h : HostSide) : (s.withHost h).ser = s.ser := rfl
@[simp] theorem State.withHost_iof (s : State) (h : HostSide) : (s.withHost h).iof = s.iof := rfl
@[simp] theorem State.withHost_disp (s : State) (h : HostSide) : (s.withHost h).disp = s.disp := rfl
@[simp] theorem State.withHost_host (s : State) (h : HostSide) : (s.withHost h).host = h := rfl
@[simp] theorem State.withHost_mem (s : State) (h : HostSide) : (s.withHost h).mem = s.mem := rfl
@[simp] theorem State.withHost_inputs (s : State) (h : HostSide) : (s.withHost h).inputs = s.inputs := rfl
@[simp] theorem State.withHost_draws (s : State) (h : HostSide) : (s.withHost h).draws = s.draws := rfl
@[simp] theorem State.withHost_result (s : State) (h : HostSide) : (s.withHost h).result = s.result := rfl
@[simp] theorem State.withHost_events (s : State) (h : HostSide) : (s.withHost h).events = s.events := rfl
@[simp] theorem State.withHost_inbox (s : State) (h : HostSide) : (s.withHost h).inbox = s.inbox := rfl
@[simp] theorem State.withHost_insideStep (s : State) (h : HostSide) : (s.withHost h).insideStep = s.insideStep := rfl
@[simp] theorem State.withHost_held (s : State) (h : HostSide) : (s.withHost h).held = s.held := rfl

@[simp] theorem State.withMem_cfg (s : State) (m : List Host.Cell) : (s.withMem m).cfg = s.cfg := rfl
@[simp] theorem State.withMem_sig (s : State) (m : List Host.Cell) : (s.withMem m).sig = s.sig := rfl
@[simp] theorem State.withMem_nvr (s : State) (m : List Host.Cell) : (s.withMem m).nvr = s.nvr := rfl
@[simp] theorem State.withMem_ser (s : State) (m : List Host.Cell) : (s.withMem m).ser = s.ser := rfl
@[simp] theorem State.withMem_iof (s : State) (m : List Host.Cell) : (s.withMem m).iof = s.iof := rfl
@[simp] theorem State.withMem_disp (s : State) (m : List Host.Cell) : (s.withMem m).disp = s.disp := rfl
@[simp] theorem State.withMem_host (s : State) (m : List Host.Cell) : (s.withMem m).host = s.host := rfl
@[simp] theorem State.withMem_mem (s : State) (m : List Host.Cell) : (s.withMem m).mem = m := rfl
@[simp] theorem State.withMem_inputs (s : State) (m : List Host.Cell) : (s.withMem m).inputs = s.inputs := rfl
@[simp] theorem State.withMem_draws (s : State) (m : List Host.Cell) : (s.withMem m).draws = s.draws := rfl
@[simp] theorem State.withMem_result (s : State) (m : List Host.Cell) : (s.withMem m).result = s.result := rfl
@[simp] theorem State.withMem_events (s : State) (m : List Host.Cell) : (s.withMem m).events = s.events := rfl
@[simp] theorem State.withMem_inbox (s : State) (m : List Host.Cell) : (s.withMem m).inbox = s.inbox := rfl
@[simp] theorem State.withMem_insideStep (s : State) (m : List Host.Cell) : (s.withMem m).insideStep = s.insideStep :=
  rfl
@[simp] theorem State.withMem_held (s : State) (m : List Host.Cell) : (s.withMem m).held = s.held := rfl

@[simp] theorem State.withInputs_cfg (s : State) (x : HostInputs) : (s.withInputs x).cfg = s.cfg := rfl
@[simp] theorem State.withInputs_sig (s : State) (x : HostInputs) : (s.withInputs x).sig = s.sig := rfl
@[simp] theorem State.withInputs_nvr (s : State) (x : HostInputs) : (s.withInputs x).nvr = s.nvr := rfl
@[simp] theorem State.withInputs_ser (s : State) (x : HostInputs) : (s.withInputs x).ser = s.ser := rfl
@[simp] theorem State.withInputs_iof (s : State) (x : HostInputs) : (s.withInputs x).iof = s.iof := rfl
@[simp] theorem State.withInputs_disp (s : State) (x : HostInputs) : (s.withInputs x).disp = s.disp := rfl
@[simp] theorem State.withInputs_host (s : State) (x : HostInputs) : (s.withInputs x).host = s.host := rfl
@[simp] theorem State.withInputs_mem (s : State) (x : HostInputs) : (s.withInputs x).mem = s.mem := rfl
@[simp] theorem State.withInputs_inputs (s : State) (x : HostInputs) : (s.withInputs x).inputs = x := rfl
@[simp] theorem State.withInputs_draws (s : State) (x : HostInputs) : (s.withInputs x).draws = s.draws := rfl
@[simp] theorem State.withInputs_result (s : State) (x : HostInputs) : (s.withInputs x).result = s.result := rfl
@[simp] theorem State.withInputs_events (s : State) (x : HostInputs) : (s.withInputs x).events = s.events := rfl
@[simp] theorem State.withInputs_inbox (s : State) (x : HostInputs) : (s.withInputs x).inbox = s.inbox := rfl
@[simp] theorem State.withInputs_insideStep (s : State) (x : HostInputs) : (s.withInputs x).insideStep = s.insideStep :=
  rfl
@[simp] theorem State.withInputs_held (s : State) (x : HostInputs) : (s.withInputs x).held = s.held := rfl

@[simp] theorem State.withDraws_cfg (s : State) (n : Nat) : (s.withDraws n).cfg = s.cfg := rfl
@[simp] theorem State.withDraws_sig (s : State) (n : Nat) : (s.withDraws n).sig = s.sig := rfl
@[simp] theorem State.withDraws_nvr (s : State) (n : Nat) : (s.withDraws n).nvr = s.nvr := rfl
@[simp] theorem State.withDraws_ser (s : State) (n : Nat) : (s.withDraws n).ser = s.ser := rfl
@[simp] theorem State.withDraws_iof (s : State) (n : Nat) : (s.withDraws n).iof = s.iof := rfl
@[simp] theorem State.withDraws_disp (s : State) (n : Nat) : (s.withDraws n).disp = s.disp := rfl
@[simp] theorem State.withDraws_host (s : State) (n : Nat) : (s.withDraws n).host = s.host := rfl
@[simp] theorem State.withDraws_mem (s : State) (n : Nat) : (s.withDraws n).mem = s.mem := rfl
@[simp] theorem State.withDraws_inputs (s : State) (n : Nat) : (s.withDraws n).inputs = s.inputs := rfl
@[simp] theorem State.withDraws_draws (s : State) (n : Nat) : (s.withDraws n).draws = n := rfl
@[simp] theorem State.withDraws_result (s : State) (n : Nat) : (s.withDraws n).result = s.result := rfl
@[simp] theorem State.withDraws_events (s : State) (n : Nat) : (s.withDraws n).events = s.events := rfl
@[simp] theorem State.withDraws_inbox (s : State) (n : Nat) : (s.withDraws n).inbox = s.inbox := rfl
@[simp] theorem State.withDraws_insideStep (s : State) (n : Nat) : (s.withDraws n).insideStep = s.insideStep := rfl
@[simp] theorem State.withDraws_held (s : State) (n : Nat) : (s.withDraws n).held = s.held := rfl

@[simp] theorem State.withInbox_cfg (s : State) (q : List Event) : (s.withInbox q).cfg = s.cfg := rfl
@[simp] theorem State.withInbox_sig (s : State) (q : List Event) : (s.withInbox q).sig = s.sig := rfl
@[simp] theorem State.withInbox_nvr (s : State) (q : List Event) : (s.withInbox q).nvr = s.nvr := rfl
@[simp] theorem State.withInbox_ser (s : State) (q : List Event) : (s.withInbox q).ser = s.ser := rfl
@[simp] theorem State.withInbox_iof (s : State) (q : List Event) : (s.withInbox q).iof = s.iof := rfl
@[simp] theorem State.withInbox_disp (s : State) (q : List Event) : (s.withInbox q).disp = s.disp := rfl
@[simp] theorem State.withInbox_host (s : State) (q : List Event) : (s.withInbox q).host = s.host := rfl
@[simp] theorem State.withInbox_mem (s : State) (q : List Event) : (s.withInbox q).mem = s.mem := rfl
@[simp] theorem State.withInbox_inputs (s : State) (q : List Event) : (s.withInbox q).inputs = s.inputs := rfl
@[simp] theorem State.withInbox_draws (s : State) (q : List Event) : (s.withInbox q).draws = s.draws := rfl
@[simp] theorem State.withInbox_result (s : State) (q : List Event) : (s.withInbox q).result = s.result := rfl
@[simp] theorem State.withInbox_events (s : State) (q : List Event) : (s.withInbox q).events = s.events := rfl
@[simp] theorem State.withInbox_inbox (s : State) (q : List Event) : (s.withInbox q).inbox = q := rfl
@[simp] theorem State.withInbox_insideStep (s : State) (q : List Event) : (s.withInbox q).insideStep = s.insideStep :=
  rfl
@[simp] theorem State.withInbox_held (s : State) (q : List Event) : (s.withInbox q).held = s.held := rfl

@[simp] theorem State.withInsideStep_cfg (s : State) (b : Bool) : (s.withInsideStep b).cfg = s.cfg := rfl
@[simp] theorem State.withInsideStep_sig (s : State) (b : Bool) : (s.withInsideStep b).sig = s.sig := rfl
@[simp] theorem State.withInsideStep_nvr (s : State) (b : Bool) : (s.withInsideStep b).nvr = s.nvr := rfl
@[simp] theorem State.withInsideStep_ser (s : State) (b : Bool) : (s.withInsideStep b).ser = s.ser := rfl
@[simp] theorem State.withInsideStep_iof (s : State) (b : Bool) : (s.withInsideStep b).iof = s.iof := rfl
@[simp] theorem State.withInsideStep_disp (s : State) (b : Bool) : (s.withInsideStep b).disp = s.disp := rfl
@[simp] theorem State.withInsideStep_host (s : State) (b : Bool) : (s.withInsideStep b).host = s.host := rfl
@[simp] theorem State.withInsideStep_mem (s : State) (b : Bool) : (s.withInsideStep b).mem = s.mem := rfl
@[simp] theorem State.withInsideStep_inputs (s : State) (b : Bool) : (s.withInsideStep b).inputs = s.inputs := rfl
@[simp] theorem State.withInsideStep_draws (s : State) (b : Bool) : (s.withInsideStep b).draws = s.draws := rfl
@[simp] theorem State.withInsideStep_result (s : State) (b : Bool) : (s.withInsideStep b).result = s.result := rfl
@[simp] theorem State.withInsideStep_events (s : State) (b : Bool) : (s.withInsideStep b).events = s.events := rfl
@[simp] theorem State.withInsideStep_inbox (s : State) (b : Bool) : (s.withInsideStep b).inbox = s.inbox := rfl
@[simp] theorem State.withInsideStep_insideStep (s : State) (b : Bool) : (s.withInsideStep b).insideStep = b := rfl
@[simp] theorem State.withInsideStep_held (s : State) (b : Bool) : (s.withInsideStep b).held = s.held := rfl

@[simp] theorem State.withHeld_cfg (s : State) (q : List Event) : (s.withHeld q).cfg = s.cfg := rfl
@[simp] theorem State.withHeld_sig (s : State) (q : List Event) : (s.withHeld q).sig = s.sig := rfl
@[simp] theorem State.withHeld_nvr (s : State) (q : List Event) : (s.withHeld q).nvr = s.nvr := rfl
@[simp] theorem State.withHeld_ser (s : State) (q : List Event) : (s.withHeld q).ser = s.ser := rfl
@[simp] theorem State.withHeld_iof (s : State) (q : List Event) : (s.withHeld q).iof = s.iof := rfl
@[simp] theorem State.withHeld_disp (s : State) (q : List Event) : (s.withHeld q).disp = s.disp := rfl
@[simp] theorem State.withHeld_host (s : State) (q : List Event) : (s.withHeld q).host = s.host := rfl
@[simp] theorem State.withHeld_mem (s : State) (q : List Event) : (s.withHeld q).mem = s.mem := rfl
@[simp] theorem State.withHeld_inputs (s : State) (q : List Event) : (s.withHeld q).inputs = s.inputs := rfl
@[simp] theorem State.withHeld_draws (s : State) (q : List Event) : (s.withHeld q).draws = s.draws := rfl
@[simp] theorem State.withHeld_result (s : State) (q : List Event) : (s.withHeld q).result = s.result := rfl
@[simp] theorem State.withHeld_events (s : State) (q : List Event) : (s.withHeld q).events = s.events := rfl
@[simp] theorem State.withHeld_inbox (s : State) (q : List Event) : (s.withHeld q).inbox = s.inbox := rfl
@[simp] theorem State.withHeld_insideStep (s : State) (q : List Event) : (s.withHeld q).insideStep = s.insideStep := rfl
@[simp] theorem State.withHeld_held (s : State) (q : List Event) : (s.withHeld q).held = q := rfl

@[simp] theorem State.answer_cfg (s : State) (r : Result) : (s.answer r).cfg = s.cfg := rfl
@[simp] theorem State.answer_sig (s : State) (r : Result) : (s.answer r).sig = s.sig := rfl
@[simp] theorem State.answer_nvr (s : State) (r : Result) : (s.answer r).nvr = s.nvr := rfl
@[simp] theorem State.answer_ser (s : State) (r : Result) : (s.answer r).ser = s.ser := rfl
@[simp] theorem State.answer_iof (s : State) (r : Result) : (s.answer r).iof = s.iof := rfl
@[simp] theorem State.answer_disp (s : State) (r : Result) : (s.answer r).disp = s.disp := rfl
@[simp] theorem State.answer_host (s : State) (r : Result) : (s.answer r).host = s.host := rfl
@[simp] theorem State.answer_mem (s : State) (r : Result) : (s.answer r).mem = s.mem := rfl
@[simp] theorem State.answer_inputs (s : State) (r : Result) : (s.answer r).inputs = s.inputs := rfl
@[simp] theorem State.answer_draws (s : State) (r : Result) : (s.answer r).draws = s.draws := rfl
@[simp] theorem State.answer_result (s : State) (r : Result) : (s.answer r).result = r := rfl
@[simp] theorem State.answer_events (s : State) (r : Result) : (s.answer r).events = s.events := rfl
@[simp] theorem State.answer_inbox (s : State) (r : Result) : (s.answer r).inbox = s.inbox := rfl
@[simp] theorem State.answer_insideStep (s : State) (r : Result) : (s.answer r).insideStep = s.insideStep := rfl
@[simp] theorem State.answer_held (s : State) (r : Result) : (s.answer r).held = s.held := rfl

@[simp] theorem State.emit_cfg (s : State) (e : HostEvent) : (s.emit e).cfg = s.cfg := rfl
@[simp] theorem State.emit_sig (s : State) (e : HostEvent) : (s.emit e).sig = s.sig := rfl
@[simp] theorem State.emit_nvr (s : State) (e : HostEvent) : (s.emit e).nvr = s.nvr := rfl
@[simp] theorem State.emit_ser (s : State) (e : HostEvent) : (s.emit e).ser = s.ser := rfl
@[simp] theorem State.emit_iof (s : State) (e : HostEvent) : (s.emit e).iof = s.iof := rfl
@[simp] theorem State.emit_disp (s : State) (e : HostEvent) : (s.emit e).disp = s.disp := rfl
@[simp] theorem State.emit_host (s : State) (e : HostEvent) : (s.emit e).host = s.host := rfl
@[simp] theorem State.emit_mem (s : State) (e : HostEvent) : (s.emit e).mem = s.mem := rfl
@[simp] theorem State.emit_inputs (s : State) (e : HostEvent) : (s.emit e).inputs = s.inputs := rfl
@[simp] theorem State.emit_draws (s : State) (e : HostEvent) : (s.emit e).draws = s.draws := rfl
@[simp] theorem State.emit_result (s : State) (e : HostEvent) : (s.emit e).result = s.result := rfl
@[simp] theorem State.emit_events (s : State) (e : HostEvent) : (s.emit e).events = e :: s.events := rfl
@[simp] theorem State.emit_inbox (s : State) (e : HostEvent) : (s.emit e).inbox = s.inbox := rfl
@[simp] theorem State.emit_insideStep (s : State) (e : HostEvent) : (s.emit e).insideStep = s.insideStep := rfl
@[simp] theorem State.emit_held (s : State) (e : HostEvent) : (s.emit e).held = s.held := rfl

@[simp] theorem State.emitIf_cfg (s : State) (b : Bool) (e : HostEvent) : (s.emitIf b e).cfg = s.cfg := rfl
@[simp] theorem State.emitIf_sig (s : State) (b : Bool) (e : HostEvent) : (s.emitIf b e).sig = s.sig := rfl
@[simp] theorem State.emitIf_nvr (s : State) (b : Bool) (e : HostEvent) : (s.emitIf b e).nvr = s.nvr := rfl
@[simp] theorem State.emitIf_ser (s : State) (b : Bool) (e : HostEvent) : (s.emitIf b e).ser = s.ser := rfl
@[simp] theorem State.emitIf_iof (s : State) (b : Bool) (e : HostEvent) : (s.emitIf b e).iof = s.iof := rfl
@[simp] theorem State.emitIf_disp (s : State) (b : Bool) (e : HostEvent) : (s.emitIf b e).disp = s.disp := rfl
@[simp] theorem State.emitIf_host (s : State) (b : Bool) (e : HostEvent) : (s.emitIf b e).host = s.host := rfl
@[simp] theorem State.emitIf_mem (s : State) (b : Bool) (e : HostEvent) : (s.emitIf b e).mem = s.mem := rfl
@[simp] theorem State.emitIf_inputs (s : State) (b : Bool) (e : HostEvent) : (s.emitIf b e).inputs = s.inputs := rfl
@[simp] theorem State.emitIf_draws (s : State) (b : Bool) (e : HostEvent) : (s.emitIf b e).draws = s.draws := rfl
@[simp] theorem State.emitIf_result (s : State) (b : Bool) (e : HostEvent) : (s.emitIf b e).result = s.result := rfl
@[simp] theorem State.emitIf_inbox (s : State) (b : Bool) (e : HostEvent) : (s.emitIf b e).inbox = s.inbox := rfl
@[simp] theorem State.emitIf_insideStep (s : State) (b : Bool) (e : HostEvent) : (s.emitIf b e).insideStep = s.insideStep :=
  rfl
@[simp] theorem State.emitIf_held (s : State) (b : Bool) (e : HostEvent) : (s.emitIf b e).held = s.held := rfl
@[simp] theorem State.emitIf_events (s : State) (b : Bool) (e : HostEvent) :
    (s.emitIf b e).events = if b then e :: s.events else s.events := rfl

@[simp] theorem Signals.get_put_same (g : Signals) (x : SigId) (v : Signal) : (g.put x v).get x = v := by
  cases x <;> rfl

theorem Signals.get_put_other (g : Signals) {x y : SigId} (v : Signal) (h : x ≠ y) : (g.put x v).get y = g.get y := by
  cases x <;> cases y <;> first | rfl | exact absurd rfl h

theorem Signals.ext_get {g h : Signals} (e : ∀ x, g.get x = h.get x) : g = h := by
  cases g
  cases h
  have h1 := e .lba4
  have h2 := e .lba7
  have h3 := e .vsync
  have h4 := e .baud
  simp only [Signals.get] at h1 h2 h3 h4
  subst h1 h2 h3 h4
  rfl

theorem Signals.put_get_self (g : Signals) (x : SigId) : g.put x (g.get x) = g := by
  cases x <;> rfl

end Sys2Proof.Machine
end

