-- ==== Sys2Proof/Laws/Ops.lean ====
section
/-! SUPPORT. For each shared operation, once: the parts of the state it leaves alone. Provers cite these lemmas and
do not unfold the operation for its frame. -/

namespace Sys2Proof.Machine

@[simp] theorem coreStore_leaves (a : Addr) (b : Byte) (s : State) :
    (coreStore a b s).cfg = s.cfg ∧
    (coreStore a b s).sig = s.sig ∧
    (coreStore a b s).nvr = s.nvr ∧
    (coreStore a b s).ser = s.ser ∧
    (coreStore a b s).iof = s.iof ∧
    (coreStore a b s).disp = s.disp ∧
    (coreStore a b s).host = s.host ∧
    (coreStore a b s).inputs = s.inputs ∧
    (coreStore a b s).draws = s.draws ∧
    (coreStore a b s).result = s.result ∧
    (coreStore a b s).events = s.events ∧
    (coreStore a b s).inbox = s.inbox ∧
    (coreStore a b s).insideStep = s.insideStep ∧
    (coreStore a b s).held = s.held := by
  simp [coreStore]

@[simp] theorem advanceSig_leaves (x : SigId) (delta : Nat) (s : State) :
    (advanceSig x delta s).cfg = s.cfg ∧
    (advanceSig x delta s).nvr = s.nvr ∧
    (advanceSig x delta s).ser = s.ser ∧
    (advanceSig x delta s).iof = s.iof ∧
    (advanceSig x delta s).disp = s.disp ∧
    (advanceSig x delta s).host = s.host ∧
    (advanceSig x delta s).mem = s.mem ∧
    (advanceSig x delta s).inputs = s.inputs ∧
    (advanceSig x delta s).draws = s.draws ∧
    (advanceSig x delta s).result = s.result ∧
    (advanceSig x delta s).events = s.events ∧
    (advanceSig x delta s).inbox = s.inbox ∧
    (advanceSig x delta s).insideStep = s.insideStep ∧
    (advanceSig x delta s).held = s.held := by
  simp [advanceSig]

@[simp] theorem setPeriod_leaves (x : SigId) (p : Nat) (s : State) :
    (setPeriod x p s).cfg = s.cfg ∧
    (setPeriod x p s).nvr = s.nvr ∧
    (setPeriod x p s).ser = s.ser ∧
    (setPeriod x p s).iof = s.iof ∧
    (setPeriod x p s).disp = s.disp ∧
    (setPeriod x p s).host = s.host ∧
    (setPeriod x p s).mem = s.mem ∧
    (setPeriod x p s).inputs = s.inputs ∧
    (setPeriod x p s).draws = s.draws ∧
    (setPeriod x p s).result = s.result ∧
    (setPeriod x p s).events = s.events ∧
    (setPeriod x p s).inbox = s.inbox ∧
    (setPeriod x p s).insideStep = s.insideStep ∧
    (setPeriod x p s).held = s.held := by
  simp [setPeriod]

@[simp] theorem nvrAcceptAddr_leaves (din : Bool) (s : State) :
    (nvrAcceptAddr din s).cfg = s.cfg ∧
    (nvrAcceptAddr din s).sig = s.sig ∧
    (nvrAcceptAddr din s).ser = s.ser ∧
    (nvrAcceptAddr din s).iof = s.iof ∧
    (nvrAcceptAddr din s).disp = s.disp ∧
    (nvrAcceptAddr din s).host = s.host ∧
    (nvrAcceptAddr din s).mem = s.mem ∧
    (nvrAcceptAddr din s).inputs = s.inputs ∧
    (nvrAcceptAddr din s).draws = s.draws ∧
    (nvrAcceptAddr din s).result = s.result ∧
    (nvrAcceptAddr din s).events = s.events ∧
    (nvrAcceptAddr din s).inbox = s.inbox ∧
    (nvrAcceptAddr din s).insideStep = s.insideStep ∧
    (nvrAcceptAddr din s).held = s.held := by
  simp [nvrAcceptAddr]

@[simp] theorem nvrErase_leaves (s : State) :
    (nvrErase s).cfg = s.cfg ∧
    (nvrErase s).sig = s.sig ∧
    (nvrErase s).ser = s.ser ∧
    (nvrErase s).iof = s.iof ∧
    (nvrErase s).disp = s.disp ∧
    (nvrErase s).host = s.host ∧
    (nvrErase s).mem = s.mem ∧
    (nvrErase s).inputs = s.inputs ∧
    (nvrErase s).draws = s.draws ∧
    (nvrErase s).result = s.result ∧
    (nvrErase s).events = s.events ∧
    (nvrErase s).inbox = s.inbox ∧
    (nvrErase s).insideStep = s.insideStep ∧
    (nvrErase s).held = s.held := by
  simp [nvrErase]

@[simp] theorem nvrAcceptData_leaves (din : Bool) (s : State) :
    (nvrAcceptData din s).cfg = s.cfg ∧
    (nvrAcceptData din s).sig = s.sig ∧
    (nvrAcceptData din s).ser = s.ser ∧
    (nvrAcceptData din s).iof = s.iof ∧
    (nvrAcceptData din s).disp = s.disp ∧
    (nvrAcceptData din s).host = s.host ∧
    (nvrAcceptData din s).mem = s.mem ∧
    (nvrAcceptData din s).inputs = s.inputs ∧
    (nvrAcceptData din s).draws = s.draws ∧
    (nvrAcceptData din s).result = s.result ∧
    (nvrAcceptData din s).events = s.events ∧
    (nvrAcceptData din s).inbox = s.inbox ∧
    (nvrAcceptData din s).insideStep = s.insideStep ∧
    (nvrAcceptData din s).held = s.held := by
  simp [nvrAcceptData]

@[simp] theorem nvrPersist_leaves (table : Vector CellWord 100) (s : State) :
    (nvrPersist table s).cfg = s.cfg ∧
    (nvrPersist table s).sig = s.sig ∧
    (nvrPersist table s).nvr = s.nvr ∧
    (nvrPersist table s).ser = s.ser ∧
    (nvrPersist table s).iof = s.iof ∧
    (nvrPersist table s).disp = s.disp ∧
    (nvrPersist table s).host = s.host ∧
    (nvrPersist table s).mem = s.mem ∧
    (nvrPersist table s).inputs = s.inputs ∧
    (nvrPersist table s).draws = s.draws ∧
    (nvrPersist table s).result = s.result ∧
    (nvrPersist table s).inbox = s.inbox ∧
    (nvrPersist table s).insideStep = s.insideStep ∧
    (nvrPersist table s).held = s.held := by
  simp [nvrPersist]

@[simp] theorem nvrStore_leaves (a : Fin 100) (d : CellWord) (s : State) :
    (nvrStore a d s).cfg = s.cfg ∧
    (nvrStore a d s).sig = s.sig ∧
    (nvrStore a d s).ser = s.ser ∧
    (nvrStore a d s).iof = s.iof ∧
    (nvrStore a d s).disp = s.disp ∧
    (nvrStore a d s).host = s.host ∧
    (nvrStore a d s).mem = s.mem ∧
    (nvrStore a d s).inputs = s.inputs ∧
    (nvrStore a d s).draws = s.draws ∧
    (nvrStore a d s).result = s.result ∧
    (nvrStore a d s).inbox = s.inbox ∧
    (nvrStore a d s).insideStep = s.insideStep ∧
    (nvrStore a d s).held = s.held := by
  unfold nvrStore
  split <;> simp

@[simp] theorem nvrWrite_leaves (s : State) :
    (nvrWrite s).cfg = s.cfg ∧
    (nvrWrite s).sig = s.sig ∧
    (nvrWrite s).ser = s.ser ∧
    (nvrWrite s).iof = s.iof ∧
    (nvrWrite s).disp = s.disp ∧
    (nvrWrite s).host = s.host ∧
    (nvrWrite s).mem = s.mem ∧
    (nvrWrite s).inputs = s.inputs ∧
    (nvrWrite s).draws = s.draws ∧
    (nvrWrite s).result = s.result ∧
    (nvrWrite s).inbox = s.inbox ∧
    (nvrWrite s).insideStep = s.insideStep ∧
    (nvrWrite s).held = s.held := by
  unfold nvrWrite
  split <;> simp

@[simp] theorem nvrRead_leaves (s : State) :
    (nvrRead s).cfg = s.cfg ∧
    (nvrRead s).sig = s.sig ∧
    (nvrRead s).ser = s.ser ∧
    (nvrRead s).iof = s.iof ∧
    (nvrRead s).disp = s.disp ∧
    (nvrRead s).host = s.host ∧
    (nvrRead s).mem = s.mem ∧
    (nvrRead s).inputs = s.inputs ∧
    (nvrRead s).draws = s.draws ∧
    (nvrRead s).result = s.result ∧
    (nvrRead s).events = s.events ∧
    (nvrRead s).inbox = s.inbox ∧
    (nvrRead s).insideStep = s.insideStep ∧
    (nvrRead s).held = s.held := by
  simp [nvrRead]

@[simp] theorem nvrShiftOut_leaves (s : State) :
    (nvrShiftOut s).cfg = s.cfg ∧
    (nvrShiftOut s).sig = s.sig ∧
    (nvrShiftOut s).ser = s.ser ∧
    (nvrShiftOut s).iof = s.iof ∧
    (nvrShiftOut s).disp = s.disp ∧
    (nvrShiftOut s).host = s.host ∧
    (nvrShiftOut s).mem = s.mem ∧
    (nvrShiftOut s).inputs = s.inputs ∧
    (nvrShiftOut s).draws = s.draws ∧
    (nvrShiftOut s).result = s.result ∧
    (nvrShiftOut s).events = s.events ∧
    (nvrShiftOut s).inbox = s.inbox ∧
    (nvrShiftOut s).insideStep = s.insideStep ∧
    (nvrShiftOut s).held = s.held := by
  simp [nvrShiftOut]

@[simp] theorem nvrRun_leaves (cmd : NvrCommand) (din : Bool) (s : State) :
    (nvrRun cmd din s).cfg = s.cfg ∧
    (nvrRun cmd din s).sig = s.sig ∧
    (nvrRun cmd din s).ser = s.ser ∧
    (nvrRun cmd din s).iof = s.iof ∧
    (nvrRun cmd din s).disp = s.disp ∧
    (nvrRun cmd din s).host = s.host ∧
    (nvrRun cmd din s).mem = s.mem ∧
    (nvrRun cmd din s).inputs = s.inputs ∧
    (nvrRun cmd din s).draws = s.draws ∧
    (nvrRun cmd din s).result = s.result ∧
    (nvrRun cmd din s).inbox = s.inbox ∧
    (nvrRun cmd din s).insideStep = s.insideStep ∧
    (nvrRun cmd din s).held = s.held := by
  cases cmd <;> simp [nvrRun]

@[simp] theorem nvrClock_leaves (s : State) :
    (nvrClock s).cfg = s.cfg ∧
    (nvrClock s).sig = s.sig ∧
    (nvrClock s).ser = s.ser ∧
    (nvrClock s).iof = s.iof ∧
    (nvrClock s).disp = s.disp ∧
    (nvrClock s).host = s.host ∧
    (nvrClock s).mem = s.mem ∧
    (nvrClock s).inputs = s.inputs ∧
    (nvrClock s).draws = s.draws ∧
    (nvrClock s).result = s.result ∧
    (nvrClock s).inbox = s.inbox ∧
    (nvrClock s).insideStep = s.insideStep ∧
    (nvrClock s).held = s.held := by
  simp [nvrClock]

@[simp] theorem openChannel_leaves (s : State) :
    (openChannel s).cfg = s.cfg ∧
    (openChannel s).sig = s.sig ∧
    (openChannel s).nvr = s.nvr ∧
    (openChannel s).iof = s.iof ∧
    (openChannel s).disp = s.disp ∧
    (openChannel s).host = s.host ∧
    (openChannel s).mem = s.mem ∧
    (openChannel s).inputs = s.inputs ∧
    (openChannel s).draws = s.draws ∧
    (openChannel s).result = s.result ∧
    (openChannel s).inbox = s.inbox ∧
    (openChannel s).insideStep = s.insideStep ∧
    (openChannel s).held = s.held := by
  unfold openChannel
  split <;> simp

@[simp] theorem closeChannel_leaves (s : State) :
    (closeChannel s).cfg = s.cfg ∧
    (closeChannel s).sig = s.sig ∧
    (closeChannel s).nvr = s.nvr ∧
    (closeChannel s).iof = s.iof ∧
    (closeChannel s).disp = s.disp ∧
    (closeChannel s).host = s.host ∧
    (closeChannel s).mem = s.mem ∧
    (closeChannel s).inputs = s.inputs ∧
    (closeChannel s).draws = s.draws ∧
    (closeChannel s).result = s.result ∧
    (closeChannel s).inbox = s.inbox ∧
    (closeChannel s).insideStep = s.insideStep ∧
    (closeChannel s).held = s.held := by
  unfold closeChannel
  split <;> simp

@[simp] theorem serWriteMode_leaves (v : Byte) (s : State) :
    (serWriteMode v s).cfg = s.cfg ∧
    (serWriteMode v s).sig = s.sig ∧
    (serWriteMode v s).nvr = s.nvr ∧
    (serWriteMode v s).iof = s.iof ∧
    (serWriteMode v s).disp = s.disp ∧
    (serWriteMode v s).host = s.host ∧
    (serWriteMode v s).mem = s.mem ∧
    (serWriteMode v s).inputs = s.inputs ∧
    (serWriteMode v s).draws = s.draws ∧
    (serWriteMode v s).result = s.result ∧
    (serWriteMode v s).events = s.events ∧
    (serWriteMode v s).inbox = s.inbox ∧
    (serWriteMode v s).insideStep = s.insideStep ∧
    (serWriteMode v s).held = s.held := by
  simp [serWriteMode]

@[simp] theorem serLatchCommand_leaves (v : Byte) (s : State) :
    (serLatchCommand v s).cfg = s.cfg ∧
    (serLatchCommand v s).sig = s.sig ∧
    (serLatchCommand v s).nvr = s.nvr ∧
    (serLatchCommand v s).iof = s.iof ∧
    (serLatchCommand v s).disp = s.disp ∧
    (serLatchCommand v s).host = s.host ∧
    (serLatchCommand v s).mem = s.mem ∧
    (serLatchCommand v s).inputs = s.inputs ∧
    (serLatchCommand v s).draws = s.draws ∧
    (serLatchCommand v s).result = s.result ∧
    (serLatchCommand v s).events = s.events ∧
    (serLatchCommand v s).inbox = s.inbox ∧
    (serLatchCommand v s).insideStep = s.insideStep ∧
    (serLatchCommand v s).held = s.held := by
  simp [serLatchCommand]

@[simp] theorem serWriteCommand_leaves (v : Byte) (s : State) :
    (serWriteCommand v s).cfg = s.cfg ∧
    (serWriteCommand v s).sig = s.sig ∧
    (serWriteCommand v s).nvr = s.nvr ∧
    (serWriteCommand v s).iof = s.iof ∧
    (serWriteCommand v s).disp = s.disp ∧
    (serWriteCommand v s).host = s.host ∧
    (serWriteCommand v s).mem = s.mem ∧
    (serWriteCommand v s).inputs = s.inputs ∧
    (serWriteCommand v s).draws = s.draws ∧
    (serWriteCommand v s).result = s.result ∧
    (serWriteCommand v s).inbox = s.inbox ∧
    (serWriteCommand v s).insideStep = s.insideStep ∧
    (serWriteCommand v s).held = s.held := by
  unfold serWriteCommand
  split <;> split <;> simp

@[simp] theorem serTransmit_leaves (h : Nat) (v : Byte) (s : State) :
    (serTransmit h v s).cfg = s.cfg ∧
    (serTransmit h v s).sig = s.sig ∧
    (serTransmit h v s).nvr = s.nvr ∧
    (serTransmit h v s).iof = s.iof ∧
    (serTransmit h v s).disp = s.disp ∧
    (serTransmit h v s).host = s.host ∧
    (serTransmit h v s).mem = s.mem ∧
    (serTransmit h v s).inputs = s.inputs ∧
    (serTransmit h v s).draws = s.draws ∧
    (serTransmit h v s).result = s.result ∧
    (serTransmit h v s).inbox = s.inbox ∧
    (serTransmit h v s).insideStep = s.insideStep ∧
    (serTransmit h v s).held = s.held := by
  unfold serTransmit
  split <;> simp

@[simp] theorem serWriteData_leaves (v : Byte) (s : State) :
    (serWriteData v s).cfg = s.cfg ∧
    (serWriteData v s).sig = s.sig ∧
    (serWriteData v s).nvr = s.nvr ∧
    (serWriteData v s).iof = s.iof ∧
    (serWriteData v s).disp = s.disp ∧
    (serWriteData v s).host = s.host ∧
    (serWriteData v s).mem = s.mem ∧
    (serWriteData v s).inputs = s.inputs ∧
    (serWriteData v s).draws = s.draws ∧
    (serWriteData v s).result = s.result ∧
    (serWriteData v s).inbox = s.inbox ∧
    (serWriteData v s).insideStep = s.insideStep ∧
    (serWriteData v s).held = s.held := by
  unfold serWriteData
  (repeat' split) <;> simp

@[simp] theorem serReadData_leaves (s : State) :
    (serReadData s).cfg = s.cfg ∧
    (serReadData s).sig = s.sig ∧
    (serReadData s).nvr = s.nvr ∧
    (serReadData s).iof = s.iof ∧
    (serReadData s).disp = s.disp ∧
    (serReadData s).host = s.host ∧
    (serReadData s).mem = s.mem ∧
    (serReadData s).inputs = s.inputs ∧
    (serReadData s).draws = s.draws ∧
    (serReadData s).events = s.events ∧
    (serReadData s).inbox = s.inbox ∧
    (serReadData s).insideStep = s.insideStep ∧
    (serReadData s).held = s.held := by
  simp [serReadData]

@[simp] theorem serPoll_leaves (h : Nat) (s : State) :
    (serPoll h s).cfg = s.cfg ∧
    (serPoll h s).sig = s.sig ∧
    (serPoll h s).nvr = s.nvr ∧
    (serPoll h s).iof = s.iof ∧
    (serPoll h s).disp = s.disp ∧
    (serPoll h s).host = s.host ∧
    (serPoll h s).mem = s.mem ∧
    (serPoll h s).inputs = s.inputs ∧
    (serPoll h s).draws = s.draws ∧
    (serPoll h s).result = s.result ∧
    (serPoll h s).inbox = s.inbox ∧
    (serPoll h s).insideStep = s.insideStep ∧
    (serPoll h s).held = s.held := by
  unfold serPoll
  (repeat' split) <;> simp

@[simp] theorem serClock_leaves (s : State) :
    (serClock s).cfg = s.cfg ∧
    (serClock s).sig = s.sig ∧
    (serClock s).nvr = s.nvr ∧
    (serClock s).iof = s.iof ∧
    (serClock s).disp = s.disp ∧
    (serClock s).host = s.host ∧
    (serClock s).mem = s.mem ∧
    (serClock s).inputs = s.inputs ∧
    (serClock s).draws = s.draws ∧
    (serClock s).result = s.result ∧
    (serClock s).inbox = s.inbox ∧
    (serClock s).insideStep = s.insideStep ∧
    (serClock s).held = s.held := by
  unfold serClock
  (repeat' split) <;> simp

@[simp] theorem serWriteCols_leaves (w : Bool) (s : State) :
    (serWriteCols w s).cfg = s.cfg ∧
    (serWriteCols w s).sig = s.sig ∧
    (serWriteCols w s).nvr = s.nvr ∧
    (serWriteCols w s).iof = s.iof ∧
    (serWriteCols w s).disp = s.disp ∧
    (serWriteCols w s).host = s.host ∧
    (serWriteCols w s).mem = s.mem ∧
    (serWriteCols w s).inputs = s.inputs ∧
    (serWriteCols w s).draws = s.draws ∧
    (serWriteCols w s).result = s.result ∧
    (serWriteCols w s).inbox = s.inbox ∧
    (serWriteCols w s).insideStep = s.insideStep ∧
    (serWriteCols w s).held = s.held := by
  unfold serWriteCols
  (repeat' split) <;> simp

@[simp] theorem serWriteControl_leaves (v : Byte) (s : State) :
    (serWriteControl v s).cfg = s.cfg ∧
    (serWriteControl v s).sig = s.sig ∧
    (serWriteControl v s).nvr = s.nvr ∧
    (serWriteControl v s).iof = s.iof ∧
    (serWriteControl v s).disp = s.disp ∧
    (serWriteControl v s).host = s.host ∧
    (serWriteControl v s).mem = s.mem ∧
    (serWriteControl v s).inputs = s.inputs ∧
    (serWriteControl v s).draws = s.draws ∧
    (serWriteControl v s).result = s.result ∧
    (serWriteControl v s).inbox = s.inbox ∧
    (serWriteControl v s).insideStep = s.insideStep ∧
    (serWriteControl v s).held = s.held := by
  unfold serWriteControl
  split <;> simp

@[simp] theorem setBrightness_leaves (v : Byte) (s : State) :
    (setBrightness v s).cfg = s.cfg ∧
    (setBrightness v s).sig = s.sig ∧
    (setBrightness v s).nvr = s.nvr ∧
    (setBrightness v s).ser = s.ser ∧
    (setBrightness v s).iof = s.iof ∧
    (setBrightness v s).host = s.host ∧
    (setBrightness v s).mem = s.mem ∧
    (setBrightness v s).inputs = s.inputs ∧
    (setBrightness v s).draws = s.draws ∧
    (setBrightness v s).result = s.result ∧
    (setBrightness v s).events = s.events ∧
    (setBrightness v s).inbox = s.inbox ∧
    (setBrightness v s).insideStep = s.insideStep ∧
    (setBrightness v s).held = s.held := by
  simp [setBrightness]

@[simp] theorem loadScroll_leaves (v : Nat) (s : State) :
    (loadScroll v s).cfg = s.cfg ∧
    (loadScroll v s).sig = s.sig ∧
    (loadScroll v s).nvr = s.nvr ∧
    (loadScroll v s).ser = s.ser ∧
    (loadScroll v s).iof = s.iof ∧
    (loadScroll v s).host = s.host ∧
    (loadScroll v s).mem = s.mem ∧
    (loadScroll v s).inputs = s.inputs ∧
    (loadScroll v s).draws = s.draws ∧
    (loadScroll v s).result = s.result ∧
    (loadScroll v s).events = s.events ∧
    (loadScroll v s).inbox = s.inbox ∧
    (loadScroll v s).insideStep = s.insideStep ∧
    (loadScroll v s).held = s.held := by
  simp [loadScroll]

@[simp] theorem scrollLow_leaves (k : BitVec 2) (s : State) :
    (scrollLow k s).cfg = s.cfg ∧
    (scrollLow k s).sig = s.sig ∧
    (scrollLow k s).nvr = s.nvr ∧
    (scrollLow k s).ser = s.ser ∧
    (scrollLow k s).iof = s.iof ∧
    (scrollLow k s).host = s.host ∧
    (scrollLow k s).mem = s.mem ∧
    (scrollLow k s).inputs = s.inputs ∧
    (scrollLow k s).draws = s.draws ∧
    (scrollLow k s).result = s.result ∧
    (scrollLow k s).events = s.events ∧
    (scrollLow k s).inbox = s.inbox ∧
    (scrollLow k s).insideStep = s.insideStep ∧
    (scrollLow k s).held = s.held := by
  simp [scrollLow]

@[simp] theorem scrollHigh_leaves (k : BitVec 2) (s : State) :
    (scrollHigh k s).cfg = s.cfg ∧
    (scrollHigh k s).sig = s.sig ∧
    (scrollHigh k s).nvr = s.nvr ∧
    (scrollHigh k s).ser = s.ser ∧
    (scrollHigh k s).iof = s.iof ∧
    (scrollHigh k s).host = s.host ∧
    (scrollHigh k s).mem = s.mem ∧
    (scrollHigh k s).inputs = s.inputs ∧
    (scrollHigh k s).draws = s.draws ∧
    (scrollHigh k s).result = s.result ∧
    (scrollHigh k s).events = s.events ∧
    (scrollHigh k s).inbox = s.inbox ∧
    (scrollHigh k s).insideStep = s.insideStep ∧
    (scrollHigh k s).held = s.held := by
  simp [scrollHigh]

@[simp] theorem toggleBlink_leaves (s : State) :
    (toggleBlink s).cfg = s.cfg ∧
    (toggleBlink s).sig = s.sig ∧
    (toggleBlink s).nvr = s.nvr ∧
    (toggleBlink s).ser = s.ser ∧
    (toggleBlink s).iof = s.iof ∧
    (toggleBlink s).host = s.host ∧
    (toggleBlink s).mem = s.mem ∧
    (toggleBlink s).inputs = s.inputs ∧
    (toggleBlink s).draws = s.draws ∧
    (toggleBlink s).result = s.result ∧
    (toggleBlink s).events = s.events ∧
    (toggleBlink s).inbox = s.inbox ∧
    (toggleBlink s).insideStep = s.insideStep ∧
    (toggleBlink s).held = s.held := by
  simp [toggleBlink]

@[simp] theorem setScreenReverse_leaves (on : Bool) (s : State) :
    (setScreenReverse on s).cfg = s.cfg ∧
    (setScreenReverse on s).sig = s.sig ∧
    (setScreenReverse on s).nvr = s.nvr ∧
    (setScreenReverse on s).ser = s.ser ∧
    (setScreenReverse on s).iof = s.iof ∧
    (setScreenReverse on s).host = s.host ∧
    (setScreenReverse on s).mem = s.mem ∧
    (setScreenReverse on s).inputs = s.inputs ∧
    (setScreenReverse on s).draws = s.draws ∧
    (setScreenReverse on s).result = s.result ∧
    (setScreenReverse on s).events = s.events ∧
    (setScreenReverse on s).inbox = s.inbox ∧
    (setScreenReverse on s).insideStep = s.insideStep ∧
    (setScreenReverse on s).held = s.held := by
  simp [setScreenReverse]

@[simp] theorem setBaseAttr_leaves (b : BaseAttr) (s : State) :
    (setBaseAttr b s).cfg = s.cfg ∧
    (setBaseAttr b s).sig = s.sig ∧
    (setBaseAttr b s).nvr = s.nvr ∧
    (setBaseAttr b s).ser = s.ser ∧
    (setBaseAttr b s).iof = s.iof ∧
    (setBaseAttr b s).host = s.host ∧
    (setBaseAttr b s).mem = s.mem ∧
    (setBaseAttr b s).inputs = s.inputs ∧
    (setBaseAttr b s).draws = s.draws ∧
    (setBaseAttr b s).result = s.result ∧
    (setBaseAttr b s).events = s.events ∧
    (setBaseAttr b s).inbox = s.inbox ∧
    (setBaseAttr b s).insideStep = s.insideStep ∧
    (setBaseAttr b s).held = s.held := by
  simp [setBaseAttr]

@[simp] theorem a2Run_leaves (op : A2Op) (s : State) :
    (a2Run op s).cfg = s.cfg ∧
    (a2Run op s).sig = s.sig ∧
    (a2Run op s).nvr = s.nvr ∧
    (a2Run op s).ser = s.ser ∧
    (a2Run op s).iof = s.iof ∧
    (a2Run op s).host = s.host ∧
    (a2Run op s).mem = s.mem ∧
    (a2Run op s).inputs = s.inputs ∧
    (a2Run op s).draws = s.draws ∧
    (a2Run op s).result = s.result ∧
    (a2Run op s).events = s.events ∧
    (a2Run op s).inbox = s.inbox ∧
    (a2Run op s).insideStep = s.insideStep ∧
    (a2Run op s).held = s.held := by
  cases op <;> simp [a2Run]

@[simp] theorem setColumns_leaves (w : Bool) (s : State) :
    (setColumns w s).cfg = s.cfg ∧
    (setColumns w s).sig = s.sig ∧
    (setColumns w s).nvr = s.nvr ∧
    (setColumns w s).iof = s.iof ∧
    (setColumns w s).host = s.host ∧
    (setColumns w s).mem = s.mem ∧
    (setColumns w s).inputs = s.inputs ∧
    (setColumns w s).draws = s.draws ∧
    (setColumns w s).result = s.result ∧
    (setColumns w s).inbox = s.inbox ∧
    (setColumns w s).insideStep = s.insideStep ∧
    (setColumns w s).held = s.held := by
  simp [setColumns]

@[simp] theorem setRefreshRate_leaves (hz50 : Bool) (s : State) :
    (setRefreshRate hz50 s).cfg = s.cfg ∧
    (setRefreshRate hz50 s).nvr = s.nvr ∧
    (setRefreshRate hz50 s).ser = s.ser ∧
    (setRefreshRate hz50 s).iof = s.iof ∧
    (setRefreshRate hz50 s).host = s.host ∧
    (setRefreshRate hz50 s).mem = s.mem ∧
    (setRefreshRate hz50 s).inputs = s.inputs ∧
    (setRefreshRate hz50 s).draws = s.draws ∧
    (setRefreshRate hz50 s).result = s.result ∧
    (setRefreshRate hz50 s).events = s.events ∧
    (setRefreshRate hz50 s).inbox = s.inbox ∧
    (setRefreshRate hz50 s).insideStep = s.insideStep ∧
    (setRefreshRate hz50 s).held = s.held := by
  simp [setRefreshRate]

@[simp] theorem c2Run_leaves (op : C2Op) (s : State) :
    (c2Run op s).cfg = s.cfg ∧
    (c2Run op s).nvr = s.nvr ∧
    (c2Run op s).iof = s.iof ∧
    (c2Run op s).host = s.host ∧
    (c2Run op s).mem = s.mem ∧
    (c2Run op s).inputs = s.inputs ∧
    (c2Run op s).draws = s.draws ∧
    (c2Run op s).result = s.result ∧
    (c2Run op s).inbox = s.inbox ∧
    (c2Run op s).insideStep = s.insideStep ∧
    (c2Run op s).held = s.held := by
  cases op <;> simp [c2Run]

@[simp] theorem writeBaud_leaves (v : Byte) (s : State) :
    (writeBaud v s).cfg = s.cfg ∧
    (writeBaud v s).nvr = s.nvr ∧
    (writeBaud v s).ser = s.ser ∧
    (writeBaud v s).disp = s.disp ∧
    (writeBaud v s).host = s.host ∧
    (writeBaud v s).mem = s.mem ∧
    (writeBaud v s).inputs = s.inputs ∧
    (writeBaud v s).draws = s.draws ∧
    (writeBaud v s).result = s.result ∧
    (writeBaud v s).events = s.events ∧
    (writeBaud v s).inbox = s.inbox ∧
    (writeBaud v s).insideStep = s.insideStep ∧
    (writeBaud v s).held = s.held := by
  simp [writeBaud]

@[simp] theorem raiseIrq_leaves (src : IrqSource) (s : State) :
    (raiseIrq src s).cfg = s.cfg ∧
    (raiseIrq src s).sig = s.sig ∧
    (raiseIrq src s).nvr = s.nvr ∧
    (raiseIrq src s).ser = s.ser ∧
    (raiseIrq src s).disp = s.disp ∧
    (raiseIrq src s).host = s.host ∧
    (raiseIrq src s).mem = s.mem ∧
    (raiseIrq src s).inputs = s.inputs ∧
    (raiseIrq src s).draws = s.draws ∧
    (raiseIrq src s).result = s.result ∧
    (raiseIrq src s).events = s.events ∧
    (raiseIrq src s).inbox = s.inbox ∧
    (raiseIrq src s).insideStep = s.insideStep ∧
    (raiseIrq src s).held = s.held := by
  simp [raiseIrq]

@[simp] theorem acknowledgeIrq_leaves (s : State) :
    (acknowledgeIrq s).cfg = s.cfg ∧
    (acknowledgeIrq s).sig = s.sig ∧
    (acknowledgeIrq s).nvr = s.nvr ∧
    (acknowledgeIrq s).ser = s.ser ∧
    (acknowledgeIrq s).disp = s.disp ∧
    (acknowledgeIrq s).host = s.host ∧
    (acknowledgeIrq s).mem = s.mem ∧
    (acknowledgeIrq s).inputs = s.inputs ∧
    (acknowledgeIrq s).draws = s.draws ∧
    (acknowledgeIrq s).events = s.events ∧
    (acknowledgeIrq s).inbox = s.inbox ∧
    (acknowledgeIrq s).insideStep = s.insideStep ∧
    (acknowledgeIrq s).held = s.held := by
  simp [acknowledgeIrq]

@[simp] theorem fallbackIrq_leaves (s : State) :
    (fallbackIrq s).cfg = s.cfg ∧
    (fallbackIrq s).sig = s.sig ∧
    (fallbackIrq s).nvr = s.nvr ∧
    (fallbackIrq s).ser = s.ser ∧
    (fallbackIrq s).disp = s.disp ∧
    (fallbackIrq s).host = s.host ∧
    (fallbackIrq s).mem = s.mem ∧
    (fallbackIrq s).inputs = s.inputs ∧
    (fallbackIrq s).draws = s.draws ∧
    (fallbackIrq s).result = s.result ∧
    (fallbackIrq s).events = s.events ∧
    (fallbackIrq s).inbox = s.inbox ∧
    (fallbackIrq s).insideStep = s.insideStep ∧
    (fallbackIrq s).held = s.held := by
  unfold fallbackIrq
  split <;> simp

@[simp] theorem pacePhase_leaves (delta : Nat) (s : State) :
    (pacePhase delta s).cfg = s.cfg ∧
    (pacePhase delta s).sig = s.sig ∧
    (pacePhase delta s).nvr = s.nvr ∧
    (pacePhase delta s).ser = s.ser ∧
    (pacePhase delta s).iof = s.iof ∧
    (pacePhase delta s).disp = s.disp ∧
    (pacePhase delta s).mem = s.mem ∧
    (pacePhase delta s).inputs = s.inputs ∧
    (pacePhase delta s).draws = s.draws ∧
    (pacePhase delta s).result = s.result ∧
    (pacePhase delta s).events = s.events ∧
    (pacePhase delta s).inbox = s.inbox ∧
    (pacePhase delta s).insideStep = s.insideStep ∧
    (pacePhase delta s).held = s.held := by
  unfold pacePhase
  split <;> simp

@[simp] theorem forceControlMode_leaves (s : State) :
    (forceControlMode s).cfg = s.cfg ∧
    (forceControlMode s).sig = s.sig ∧
    (forceControlMode s).nvr = s.nvr ∧
    (forceControlMode s).ser = s.ser ∧
    (forceControlMode s).iof = s.iof ∧
    (forceControlMode s).disp = s.disp ∧
    (forceControlMode s).mem = s.mem ∧
    (forceControlMode s).inputs = s.inputs ∧
    (forceControlMode s).draws = s.draws ∧
    (forceControlMode s).result = s.result ∧
    (forceControlMode s).events = s.events ∧
    (forceControlMode s).inbox = s.inbox ∧
    (forceControlMode s).insideStep = s.insideStep ∧
    (forceControlMode s).held = s.held := by
  simp [forceControlMode]

@[simp] theorem serialEvent_leaves (s : State) :
    (serialEvent s).cfg = s.cfg ∧
    (serialEvent s).sig = s.sig ∧
    (serialEvent s).nvr = s.nvr ∧
    (serialEvent s).ser = s.ser ∧
    (serialEvent s).disp = s.disp ∧
    (serialEvent s).mem = s.mem ∧
    (serialEvent s).inputs = s.inputs ∧
    (serialEvent s).draws = s.draws ∧
    (serialEvent s).result = s.result ∧
    (serialEvent s).events = s.events ∧
    (serialEvent s).inbox = s.inbox ∧
    (serialEvent s).insideStep = s.insideStep ∧
    (serialEvent s).held = s.held := by
  unfold serialEvent
  split <;> simp

@[simp] theorem serialPhase_leaves (s : State) :
    (serialPhase s).cfg = s.cfg ∧
    (serialPhase s).sig = s.sig ∧
    (serialPhase s).nvr = s.nvr ∧
    (serialPhase s).disp = s.disp ∧
    (serialPhase s).mem = s.mem ∧
    (serialPhase s).inputs = s.inputs ∧
    (serialPhase s).draws = s.draws ∧
    (serialPhase s).result = s.result ∧
    (serialPhase s).inbox = s.inbox ∧
    (serialPhase s).insideStep = s.insideStep ∧
    (serialPhase s).held = s.held := by
  unfold serialPhase
  split <;> simp

@[simp] theorem keyboardPhase_leaves (s : State) :
    (keyboardPhase s).cfg = s.cfg ∧
    (keyboardPhase s).sig = s.sig ∧
    (keyboardPhase s).nvr = s.nvr ∧
    (keyboardPhase s).ser = s.ser ∧
    (keyboardPhase s).iof = s.iof ∧
    (keyboardPhase s).disp = s.disp ∧
    (keyboardPhase s).host = s.host ∧
    (keyboardPhase s).mem = s.mem ∧
    (keyboardPhase s).inputs = s.inputs ∧
    (keyboardPhase s).draws = s.draws ∧
    (keyboardPhase s).result = s.result ∧
    (keyboardPhase s).inbox = s.inbox ∧
    (keyboardPhase s).insideStep = s.insideStep ∧
    (keyboardPhase s).held = s.held := by
  simp [keyboardPhase]

@[simp] theorem verticalPhase_leaves (s : State) :
    (verticalPhase s).cfg = s.cfg ∧
    (verticalPhase s).sig = s.sig ∧
    (verticalPhase s).nvr = s.nvr ∧
    (verticalPhase s).ser = s.ser ∧
    (verticalPhase s).disp = s.disp ∧
    (verticalPhase s).host = s.host ∧
    (verticalPhase s).mem = s.mem ∧
    (verticalPhase s).inputs = s.inputs ∧
    (verticalPhase s).draws = s.draws ∧
    (verticalPhase s).result = s.result ∧
    (verticalPhase s).events = s.events ∧
    (verticalPhase s).inbox = s.inbox ∧
    (verticalPhase s).insideStep = s.insideStep ∧
    (verticalPhase s).held = s.held := by
  simp [verticalPhase]

@[simp] theorem beginInstruction_leaves (s : State) :
    (beginInstruction s).cfg = s.cfg ∧
    (beginInstruction s).sig = s.sig ∧
    (beginInstruction s).nvr = s.nvr ∧
    (beginInstruction s).ser = s.ser ∧
    (beginInstruction s).disp = s.disp ∧
    (beginInstruction s).host = s.host ∧
    (beginInstruction s).mem = s.mem ∧
    (beginInstruction s).inputs = s.inputs ∧
    (beginInstruction s).draws = s.draws ∧
    (beginInstruction s).result = s.result ∧
    (beginInstruction s).events = s.events ∧
    (beginInstruction s).inbox = s.inbox ∧
    (beginInstruction s).insideStep = s.insideStep ∧
    (beginInstruction s).held = s.held := by
  simp [beginInstruction]

/-- A phase of the step leaves alone what the unit it clocks leaves alone, the signals apart. -/
theorem clockPhase_keeps {α : Type} (f : State → α) (x : SigId) (delta : Nat) (unit : State → State) (s : State)
    (hu : ∀ t, f (unit t) = f t) (hs : ∀ t, f (advanceSig x delta t) = f t) :
    f (clockPhase x delta unit s) = f s := by
  unfold clockPhase
  split
  · rw [hu, hs]
  · exact hs s

/-- The signals after a phase: one instance advanced, if the unit it clocks writes no signal. -/
theorem clockPhase_sig (x : SigId) (delta : Nat) (unit : State → State) (s : State)
    (hu : ∀ t, (unit t).sig = t.sig) :
    (clockPhase x delta unit s).sig = s.sig.put x ((s.sig.get x).advance delta).signal := by
  unfold clockPhase
  split
  · rw [hu]; rfl
  · rfl

/-- The peripheral phase writes none of these (43_io_dispatch.md R262, R269). -/
@[simp] theorem peripheralPhase_leaves (delta : Nat) (s : State) :
    (peripheralPhase delta s).cfg = s.cfg ∧
    (peripheralPhase delta s).disp = s.disp ∧
    (peripheralPhase delta s).mem = s.mem ∧
    (peripheralPhase delta s).inputs = s.inputs ∧
    (peripheralPhase delta s).draws = s.draws ∧
    (peripheralPhase delta s).result = s.result ∧
    (peripheralPhase delta s).inbox = s.inbox ∧
    (peripheralPhase delta s).insideStep = s.insideStep ∧
    (peripheralPhase delta s).held = s.held := by
  unfold peripheralPhase
  refine ⟨?_, ?_, ?_, ?_, ?_, ?_, ?_, ?_, ?_⟩
  · rw [clockPhase_keeps State.cfg, clockPhase_keeps State.cfg, clockPhase_keeps State.cfg, clockPhase_keeps State.cfg]
      <;> simp
  · rw [clockPhase_keeps State.disp, clockPhase_keeps State.disp, clockPhase_keeps State.disp,
      clockPhase_keeps State.disp] <;> simp
  · rw [clockPhase_keeps State.mem, clockPhase_keeps State.mem, clockPhase_keeps State.mem, clockPhase_keeps State.mem]
      <;> simp
  · rw [clockPhase_keeps State.inputs, clockPhase_keeps State.inputs, clockPhase_keeps State.inputs,
      clockPhase_keeps State.inputs] <;> simp
  · rw [clockPhase_keeps State.draws, clockPhase_keeps State.draws, clockPhase_keeps State.draws,
      clockPhase_keeps State.draws] <;> simp
  · rw [clockPhase_keeps State.result, clockPhase_keeps State.result, clockPhase_keeps State.result,
      clockPhase_keeps State.result] <;> simp
  · rw [clockPhase_keeps State.inbox, clockPhase_keeps State.inbox, clockPhase_keeps State.inbox,
      clockPhase_keeps State.inbox] <;> simp
  · rw [clockPhase_keeps State.insideStep, clockPhase_keeps State.insideStep, clockPhase_keeps State.insideStep,
      clockPhase_keeps State.insideStep] <;> simp
  · rw [clockPhase_keeps State.held, clockPhase_keeps State.held, clockPhase_keeps State.held,
      clockPhase_keeps State.held] <;> simp

@[simp] theorem holdEvent_leaves (e : Event) (s : State) :
    (holdEvent e s).cfg = s.cfg ∧
    (holdEvent e s).sig = s.sig ∧
    (holdEvent e s).nvr = s.nvr ∧
    (holdEvent e s).ser = s.ser ∧
    (holdEvent e s).iof = s.iof ∧
    (holdEvent e s).disp = s.disp ∧
    (holdEvent e s).host = s.host ∧
    (holdEvent e s).mem = s.mem ∧
    (holdEvent e s).inputs = s.inputs ∧
    (holdEvent e s).draws = s.draws ∧
    (holdEvent e s).result = s.result ∧
    (holdEvent e s).events = s.events ∧
    (holdEvent e s).inbox = s.inbox ∧
    (holdEvent e s).insideStep = s.insideStep := by
  simp [holdEvent]

@[simp] theorem endStep_leaves (s : State) :
    (endStep s).cfg = s.cfg ∧
    (endStep s).sig = s.sig ∧
    (endStep s).nvr = s.nvr ∧
    (endStep s).ser = s.ser ∧
    (endStep s).disp = s.disp ∧
    (endStep s).host = s.host ∧
    (endStep s).mem = s.mem ∧
    (endStep s).inputs = s.inputs ∧
    (endStep s).draws = s.draws ∧
    (endStep s).result = s.result ∧
    (endStep s).events = s.events := by
  simp [endStep, beginInstruction]

end Sys2Proof.Machine
end

