-- ==== Sys2Proof/Laws/PerInstr.lean ====
section
/-! SUPPORT. A statement about every operation as syntax, one lemma per constructor: how much an operation takes on
the wire. -/

namespace Sys2Proof.Laws.Wire

/-- The format and size of an operation's request (30_encoding.md R100, R101): a port access is a nine-bit word in two
bytes and, for a write, a data byte; a character byte carries its address (log 14); every other encoded operation is one
byte; an operation with no encoding is asked for under its own name. -/
def Statement (i : Instr) : Prop :=
  match encode i with
  | .bytes .port bs => bs.length = 2 ∨ bs.length = 3 ∧ bs[1]? = some 1
  | .bytes .char bs => bs.length = 3
  | .bytes _ bs => bs.length = 1
  | .call j => j = i

theorem sigAdv (x : SigId) (delta : Nat) : Statement (.sigAdv x delta) := rfl
theorem sigSetp (x : SigId) (p : Nat) : Statement (.sigSetp x p) := rfl
theorem nvrClk : Statement .nvrClk := rfl
theorem nvrStandby : Statement .nvrStandby := rfl
theorem nvrAcceptAddr (din : Bool) : Statement (.nvrAcceptAddr din) := rfl
theorem nvrErase : Statement .nvrErase := rfl
theorem nvrAcceptData (din : Bool) : Statement (.nvrAcceptData din) := rfl
theorem nvrWrite : Statement .nvrWrite := rfl
theorem nvrRead : Statement .nvrRead := rfl
theorem nvrShiftOut : Statement .nvrShiftOut := rfl
theorem nvrUnused : Statement .nvrUnused := rfl
theorem in00 : Statement .in00 := Or.inl rfl
theorem out00 (v : Byte) : Statement (.out00 v) := Or.inr ⟨rfl, rfl⟩
theorem in01 : Statement .in01 := Or.inl rfl
theorem out01 (v : Byte) : Statement (.out01 v) := Or.inr ⟨rfl, rfl⟩
theorem out02 (v : Byte) : Statement (.out02 v) := Or.inr ⟨rfl, rfl⟩
theorem in42 : Statement .in42 := Or.inl rfl
theorem out42 (v : Byte) : Statement (.out42 v) := Or.inr ⟨rfl, rfl⟩
theorem out62 (v : Byte) : Statement (.out62 v) := Or.inr ⟨rfl, rfl⟩
theorem in82 : Statement .in82 := Or.inl rfl
theorem out82 (v : Byte) : Statement (.out82 v) := Or.inr ⟨rfl, rfl⟩
theorem outA2 (v : Byte) : Statement (.outA2 v) := Or.inr ⟨rfl, rfl⟩
theorem outC2 (v : Byte) : Statement (.outC2 v) := Or.inr ⟨rfl, rfl⟩
theorem inOther (p : Byte) : Statement (.inOther p) := Or.inl rfl
theorem outOther (p v : Byte) : Statement (.outOther p v) := Or.inr ⟨rfl, rfl⟩
theorem a2ScrollLo (k : BitVec 2) : Statement (.a2ScrollLo k) := rfl
theorem a2ScrollHi (k : BitVec 2) : Statement (.a2ScrollHi k) := rfl
theorem a2BlinkToggle : Statement .a2BlinkToggle := rfl
theorem a2Nop : Statement .a2Nop := rfl
theorem a2NopReserved : Statement .a2NopReserved := rfl
theorem a2ReverseOn : Statement .a2ReverseOn := rfl
theorem a2ReverseOff : Statement .a2ReverseOff := rfl
theorem a2BaseUnderline : Statement .a2BaseUnderline := rfl
theorem a2BaseReverse : Statement .a2BaseReverse := rfl
theorem c2Cols80 : Statement .c2Cols80 := rfl
theorem c2Cols132 : Statement .c2Cols132 := rfl
theorem c2Hz60 : Statement .c2Hz60 := rfl
theorem c2Hz50 : Statement .c2Hz50 := rfl
theorem serWmode (v : Byte) : Statement (.serWmode v) := rfl
theorem serWcmd (v : Byte) : Statement (.serWcmd v) := rfl
theorem serWdata (v : Byte) : Statement (.serWdata v) := rfl
theorem serRdata : Statement .serRdata := rfl
theorem serRstat : Statement .serRstat := rfl
theorem serClk : Statement .serClk := rfl
theorem serWcols (w : Bool) : Statement (.serWcols w) := rfl
theorem step (delta : Nat) : Statement (.step delta) := rfl
theorem irqRaise (src : IrqSource) : Statement (.irqRaise src) := rfl
theorem irqAck : Statement .irqAck := rfl
theorem irqFallback : Statement .irqFallback := rfl
theorem vidRefresh : Statement .vidRefresh := rfl
theorem vidLine (start : Addr) : Statement (.vidLine start) := rfl
theorem vidDesc (term : Addr) : Statement (.vidDesc term) := rfl
theorem vidChar (a : Addr) (b : Byte) : Statement (.vidChar a b) := rfl
theorem vidSetup (index : Nat) (cells : List GlyphCell) : Statement (.vidSetup index cells) := rfl

end Sys2Proof.Laws.Wire
end

