-- ==== Sys2Proof/Laws/Units.lean ====
section
/-! SUPPORT. What each shared operation does, said once: signals, shift registers, the NVRAM command, the serial clock,
the phases of a step, and the cases of a step. -/

namespace Sys2Proof.Machine

/-! ## Signals -/

/-- An advance loses no tick, keeps the half period, flips the level exactly when it toggles, and rises exactly on a
toggle from low (R141, R142). -/
theorem Signal.advance_spec (g : Signal) (d : Nat) :
    (g.advance d).signal.ticks + g.periodHalf * (g.advance d).toggled.toNat = g.ticks + d ∧
    (g.advance d).signal.periodHalf = g.periodHalf ∧
    (g.advance d).signal.value = xor g.value (g.advance d).toggled ∧
    (g.advance d).rose = ((g.advance d).toggled && !g.value) ∧
    ((g.advance d).toggled = true ↔ g.periodHalf ≤ g.ticks + d) := by
  unfold Signal.advance
  split
  next h => simp only [Bool.toNat_true, Nat.mul_one, Bool.xor_true, Bool.true_and, true_and, true_iff]; omega
  next h => simp [h]

/-! ## Shift registers and the NVRAM -/

/-- A shift with a bit entering is doubling and adding, modulo the width (R164, R166). -/
theorem shiftIn_eq {w : Nat} (r : BitVec w) (d : Bool) : shiftIn r d = BitVec.ofNat w (2 * r.toNat + d.toNat) := by
  have h : r <<< 1 ||| (BitVec.ofBool d).setWidth w = r <<< 1 + (BitVec.ofBool d).setWidth w := by
    rw [BitVec.add_eq_or_of_and_eq_zero]
    ext i hi
    cases d
    · simp
    · simp; omega
  unfold shiftIn
  rw [h]
  apply BitVec.eq_of_toNat_eq
  cases d <;> simp [BitVec.toNat_shiftLeft, Nat.shiftLeft_eq, Nat.mul_comm]

/-- The bits after a shift: the new one at 0, the others one place up. -/
theorem shiftIn_bit {w : Nat} (r : BitVec w) (d : Bool) {i : Nat} (hi : i < w) :
    (shiftIn r d).getLsbD i = if i = 0 then d else r.getLsbD (i - 1) := by
  unfold shiftIn
  rcases i with _ | i
  · cases d <;> simp [hi]
  · have h := Nat.lt_of_succ_lt hi
    cases d <;> simp [hi, h]

/-- A cell reads as what was stored in it. -/
theorem Vector.get_set_cell (v : Vector CellWord 100) (i : Fin 100) (x : CellWord) : (v.set i.val x).get i = x := by
  simp [Vector.get_eq_getElem]

/-- A command writes the registers of its own rule and no other; none writes the latch (R163 to R171). -/
theorem nvrRun_spec (cmd : NvrCommand) (din : Bool) (s : State) :
    (nvrRun cmd din s).nvr.latch = s.nvr.latch ∧
    (cmd ≠ .acceptAddr → (nvrRun cmd din s).nvr.addressReg = s.nvr.addressReg) ∧
    (cmd ≠ .acceptData → cmd ≠ .read → cmd ≠ .shiftOut → (nvrRun cmd din s).nvr.dataReg = s.nvr.dataReg) ∧
    (cmd ≠ .erase → cmd ≠ .write → (nvrRun cmd din s).nvr.contents = s.nvr.contents) ∧
    (cmd ≠ .shiftOut → (nvrRun cmd din s).nvr.out = s.nvr.out) ∧
    (cmd ≠ .write → (nvrRun cmd din s).nvr.lastWrite = s.nvr.lastWrite) := by
  cases cmd <;> simp [nvrRun, nvrAcceptAddr, nvrErase, nvrAcceptData, nvrWrite, nvrRead, nvrShiftOut]
  split
  · simp
  · unfold nvrStore
    simp only
    split <;> simp

/-- An NVRAM clock looks at the chip and the configuration only. -/
theorem nvrClock_congr {s t : State} (hn : t.nvr = s.nvr) (hc : t.cfg = s.cfg) : (nvrClock t).nvr = (nvrClock s).nvr := by
  unfold nvrClock
  rw [hn, hc]
  cases nvrCommandOf s.cfg (nvrCode s.cfg s.nvr.latch) <;>
    simp only [nvrRun, nvrAcceptAddr, nvrErase, nvrAcceptData, nvrWrite, nvrRead, nvrShiftOut, State.withNvr_nvr, hn]
  split
  · exact hn
  · unfold nvrStore
    simp only [hn, hc]
    split <;> simp

/-- The first byte that passes a test passes it, and there is one if any of those looked at passes. -/
theorem firstByte_spec (test : Byte → Bool) (n k : Nat) :
    (∀ b, firstByte test n k = some b → test b = true) ∧
    (∀ j, k ≤ j → j < k + n → test (BitVec.ofNat 8 j) = true → (firstByte test n k).isSome = true) := by
  induction n generalizing k with
  | zero => exact ⟨nofun, fun j h1 h2 => absurd h2 (by omega)⟩
  | succ n ih =>
    unfold firstByte
    split
    next h => exact ⟨fun b hb => by cases hb; exact h, fun _ _ _ _ => rfl⟩
    next h =>
      refine ⟨(ih (k + 1)).1, fun j h1 h2 hj => (ih (k + 1)).2 j ?_ (by omega) hj⟩
      rcases Nat.lt_or_eq_of_le h1 with h3 | rfl
      · exact h3
      · exact absurd hj h

/-- The latch byte of a command and a data bit holds them, if any byte does (R131, R50). -/
theorem latchByte_spec {c : Config} {cmd : NvrCommand} {din : Bool}
    (h : ∃ b, nvrCommandOf c (nvrCode c b) = cmd ∧ nvrDataBit c b = din) :
    nvrCommandOf c (nvrCode c (latchByte c cmd din)) = cmd ∧ nvrDataBit c (latchByte c cmd din) = din := by
  obtain ⟨b, h1, h2⟩ := h
  have some := (firstByte_spec (latchHolds c cmd din) 256 0).2 b.toNat (Nat.zero_le _) (by simpa using b.isLt)
    (by simp [latchHolds, h1, h2])
  obtain ⟨b', hb⟩ := Option.isSome_iff_exists.1 some
  have := (firstByte_spec _ _ _).1 b' hb
  simpa [latchHolds, latchByte, hb] using this

/-- A persist event is one call, and a log line when the host cannot write the file (R168, R331). -/
theorem nvrPersist_events (table : Vector CellWord 100) (s : State) :
    (nvrPersist table s).events =
      (if s.inputs.nvrSaveOk then [] else [.log .nvrSaveFailed]) ++ .nvrSave table :: s.events := by
  unfold nvrPersist
  cases s.inputs.nvrSaveOk <;> simp

/-- The calls of an NVRAM clock are those the chip, the configuration and the host's answers determine. -/
theorem nvrClock_calls {s t : State} (hn : t.nvr = s.nvr) (hc : t.cfg = s.cfg) (hx : t.inputs = s.inputs) :
    ∃ calls, (nvrClock s).events = calls ++ s.events ∧ (nvrClock t).events = calls ++ t.events := by
  unfold nvrClock
  rw [hn, hc]
  cases nvrCommandOf s.cfg (nvrCode s.cfg s.nvr.latch) <;> simp only [nvrRun]
  case write =>
    unfold nvrWrite nvrStore
    simp only [hn, hc]
    split
    · exact ⟨[], rfl, rfl⟩
    split
    · exact ⟨(if s.inputs.nvrSaveOk then [] else [.log .nvrSaveFailed]) ++
        [.nvrSave (s.nvr.contents.set (decodeAddr s.nvr.addressReg).val s.nvr.dataReg)],
        by rw [nvrPersist_events, State.withNvr_inputs]; simp,
        by rw [nvrPersist_events, State.withNvr_inputs, hx]; simp⟩
    · exact ⟨[], rfl, rfl⟩
  all_goals exact ⟨[], by simp, by simp⟩

/-! ## Serial controller -/

/-- A serial clock looks at the controller and the host's answers only. -/
theorem serClock_congr {s t : State} (hs : t.ser = s.ser) (hx : t.inputs = s.inputs) :
    (serClock t).ser = (serClock s).ser ∧ serClockResult t = serClockResult s := by
  constructor
  · unfold serClock serPoll closeChannel
    rw [hs, hx]
    (repeat' split) <;> simp_all
  · unfold serClockResult
    rw [hs, hx]

/-- The calls of a serial clock are those the controller and the host's answers determine. -/
theorem serClock_calls {s t : State} (hs : t.ser = s.ser) (hx : t.inputs = s.inputs) :
    ∃ calls, (serClock s).events = calls ++ s.events ∧ (serClock t).events = calls ++ t.events := by
  unfold serClock
  rw [hs]
  split
  · exact ⟨[], rfl, rfl⟩
  split
  · exact ⟨[], rfl, rfl⟩
  unfold serPoll
  rw [hx]
  split
  · exact ⟨[_], rfl, rfl⟩
  rename_i hch _ _ _
  split
  · unfold closeChannel
    simp only [State.emit_ser, hs, hch]
    exact ⟨[_, _, _], rfl, rfl⟩
  · exact ⟨[_, _], rfl, rfl⟩

/-- A serial clock writes the channel, the received byte and its flag, nothing else of the controller (R200). -/
theorem serClock_keeps (s : State) :
    (serClock s).ser.mode = s.ser.mode ∧ (serClock s).ser.command = s.ser.command ∧
    (serClock s).ser.modeSelectMode = s.ser.modeSelectMode ∧ (serClock s).ser.xoff = s.ser.xoff ∧
    (serClock s).ser.columnsWide = s.ser.columnsWide := by
  unfold serClock serPoll closeChannel
  (repeat' split) <;> simp_all

/-- The serial phase clocks the controller. -/
theorem serialPhase_ser (s : State) : (serialPhase s).ser = (serClock s).ser := by
  unfold serialPhase
  split <;> simp

/-- The serial phase makes the calls of the serial clock. -/
theorem serialPhase_events (s : State) : (serialPhase s).events = (serClock s).events := by
  unfold serialPhase
  split <;> simp

/-- The serial phase raises the serial request exactly on a true clock (R265). -/
theorem serialPhase_iof (s : State) :
    (serialPhase s).iof =
      if serClockResult s = true then
        { s.iof with intPending := true, intVector := mergeVector s.cfg s.iof.intVector .serial }
      else s.iof := by
  unfold serialPhase serialEvent
  (repeat' split) <;> simp_all [raiseIrq, forceControlMode]

/-- The serial phase forces control mode exactly on a true clock that leaves the channel closed (R265, R347). -/
theorem serialPhase_host (s : State) :
    (serialPhase s).host =
      if serClockResult s = true ∧ (serClock s).ser.channel = .closed then { s.host with controlMode := true }
      else s.host := by
  unfold serialPhase serialEvent
  by_cases h : serClockResult s = true
  · rw [if_pos h]
    simp only [raiseIrq_leaves]
    cases (serClock s).ser.channel <;> simp [h, forceControlMode]
  · rw [if_neg h, if_neg fun k => h k.1]
    simp

/-! ## Phases of a step -/

/-- A phase, seen through something that advancing the signal does not change. -/
theorem clockPhase_view {α : Type} (f : State → α) (x : SigId) (d : Nat) (unit : State → State) (s : State)
    (hs : f (advanceSig x d s) = f s) :
    f (clockPhase x d unit s) = if sigRises x d s = true then f (unit (advanceSig x d s)) else f s := by
  unfold clockPhase
  split
  · rfl
  · exact hs

/-- A phase leaves the pulses of the other signals as they were. -/
theorem clockPhase_rises {x y : SigId} (d e : Nat) (unit : State → State) (s : State)
    (hu : ∀ t, (unit t).sig = t.sig) (h : x ≠ y) : sigRises y e (clockPhase x d unit s) = sigRises y e s := by
  unfold sigRises
  rw [clockPhase_sig _ _ _ _ hu, Signals.get_put_other _ _ h]

/-- The fallback writes the vector only (R344). -/
theorem fallbackIrq_iof (s : State) :
    (fallbackIrq s).iof = s.iof ∨ (fallbackIrq s).iof = { s.iof with intVector := s.cfg.vecFallback } := by
  unfold fallbackIrq
  split
  · exact .inr rfl
  · exact .inl rfl

/-! ## Sequences of decoded operations -/

/-- A list of A2 operations writes display elements only. -/
theorem a2Fold_leaves (ops : List A2Op) (s : State) :
    (ops.foldl (fun t op => a2Run op t) s).cfg = s.cfg ∧ (ops.foldl (fun t op => a2Run op t) s).sig = s.sig ∧
    (ops.foldl (fun t op => a2Run op t) s).nvr = s.nvr ∧ (ops.foldl (fun t op => a2Run op t) s).ser = s.ser ∧
    (ops.foldl (fun t op => a2Run op t) s).iof = s.iof ∧ (ops.foldl (fun t op => a2Run op t) s).host = s.host ∧
    (ops.foldl (fun t op => a2Run op t) s).mem = s.mem ∧ (ops.foldl (fun t op => a2Run op t) s).inputs = s.inputs ∧
    (ops.foldl (fun t op => a2Run op t) s).draws = s.draws ∧ (ops.foldl (fun t op => a2Run op t) s).inbox = s.inbox ∧
    (ops.foldl (fun t op => a2Run op t) s).insideStep = s.insideStep ∧
    (ops.foldl (fun t op => a2Run op t) s).held = s.held := by
  induction ops generalizing s with
  | nil => simp
  | cons op ops ih => simpa using ih (a2Run op s)

/-- A list of C2 operations leaves alone what none of them writes. -/
theorem c2Fold_leaves (ops : List C2Op) (s : State) :
    (ops.foldl (fun t op => c2Run op t) s).cfg = s.cfg ∧ (ops.foldl (fun t op => c2Run op t) s).nvr = s.nvr ∧
    (ops.foldl (fun t op => c2Run op t) s).iof = s.iof ∧ (ops.foldl (fun t op => c2Run op t) s).host = s.host ∧
    (ops.foldl (fun t op => c2Run op t) s).mem = s.mem ∧ (ops.foldl (fun t op => c2Run op t) s).inputs = s.inputs ∧
    (ops.foldl (fun t op => c2Run op t) s).draws = s.draws ∧ (ops.foldl (fun t op => c2Run op t) s).inbox = s.inbox ∧
    (ops.foldl (fun t op => c2Run op t) s).insideStep = s.insideStep ∧
    (ops.foldl (fun t op => c2Run op t) s).held = s.held := by
  induction ops generalizing s with
  | nil => simp
  | cons op ops ih => simpa using ih (c2Run op s)

/-! ## The step -/

/-- The answers are all that admitting them changes. -/
@[simp] theorem admitAnswers_leaves (answers : Option HostInputs) (s : State) :
    (admitAnswers answers s).cfg = s.cfg ∧ (admitAnswers answers s).sig = s.sig ∧ (admitAnswers answers s).nvr = s.nvr ∧
    (admitAnswers answers s).ser = s.ser ∧ (admitAnswers answers s).iof = s.iof ∧
    (admitAnswers answers s).disp = s.disp ∧ (admitAnswers answers s).host = s.host ∧
    (admitAnswers answers s).mem = s.mem ∧ (admitAnswers answers s).result = s.result ∧
    (admitAnswers answers s).events = s.events ∧ (admitAnswers answers s).inbox = s.inbox ∧
    (admitAnswers answers s).insideStep = s.insideStep ∧ (admitAnswers answers s).held = s.held := by
  cases answers <;> simp [admitAnswers]

/-- The answers and whether a step is under way are all that admitting an event changes. -/
@[simp] theorem admitEvent_leaves (e : Event) (s : State) :
    (admitEvent e s).cfg = s.cfg ∧ (admitEvent e s).sig = s.sig ∧ (admitEvent e s).nvr = s.nvr ∧
    (admitEvent e s).ser = s.ser ∧ (admitEvent e s).iof = s.iof ∧ (admitEvent e s).disp = s.disp ∧
    (admitEvent e s).host = s.host ∧ (admitEvent e s).mem = s.mem ∧ (admitEvent e s).result = s.result ∧
    (admitEvent e s).events = s.events ∧ (admitEvent e s).inbox = s.inbox ∧
    (admitEvent e s).insideStep = (s.insideStep || beginsStep e.action) ∧ (admitEvent e s).held = s.held := by
  simp [admitEvent]

/-- What an end of step leaves: the flag of the acknowledge down, no step under way, nothing of the host's waiting, and
what waited at the head of the queue (R79, R261). -/
theorem endStep_spec (s : State) :
    (endStep s).iof = { s.iof with servicedThisStep := false } ∧ (endStep s).insideStep = false ∧
    (endStep s).held = [] ∧ (endStep s).inbox = s.held ++ s.inbox := by
  simp [endStep, beginInstruction]

/-- What waits: a refresh inside a step or with no tick pending, and the host's flags inside a step (R79, R282, R358). -/
theorem mustWait_spec (a : Action) (s : State) :
    mustWait a s = true ↔
      (isRefresh a = true ∧ (s.insideStep = true ∨ s.iof.refreshPending = 0)) ∨
        ((∃ running controlMode, a = .hostFlags running controlMode) ∧ s.insideStep = true) := by
  cases a with
  | op r =>
    cases h : s.insideStep <;> simp [mustWait, refreshAllowed, h]
  | coreStore a b => simp [mustWait, isRefresh]
  | hostFlags r c => simp [mustWait, isRefresh]

/-- Only a request of the host waits. -/
theorem hostAction_of_mustWait {a : Action} {s : State} (h : mustWait a s = true) : hostAction a = true := by
  rcases (mustWait_spec a s).1 h with ⟨h, -⟩ | ⟨⟨_, _, rfl⟩, -⟩
  · cases a with
    | op r => exact h
    | coreStore _ _ => cases h
    | hostFlags _ _ => cases h
  · rfl

/-- What a step that answers a next state did: nothing, putting a request of the host off to the end of a step, an
operation, a store of the core, or the host's flags. -/
theorem step_cases {s t : State} (h : step s = .next t) :
    (s.inbox = [] ∧ t = s) ∨
    ∃ (e : Event) (rest : List Event), s.inbox = e :: rest ∧
      ((mustWait e.action s = true ∧ t = holdEvent e (s.withInbox rest)) ∨
        mustWait e.action s = false ∧
        ((∃ r i u, e.action = .op r ∧ decode r = .ok i ∧ exec i (admitEvent e (s.withInbox rest)) = .next u ∧
            t = afterOperation i u) ∨
          (∃ a b, e.action = .coreStore a b ∧ t = coreStore a b (admitEvent e (s.withInbox rest))) ∨
          (∃ running controlMode, e.action = .hostFlags running controlMode ∧
            t = (admitEvent e (s.withInbox rest)).withHost
              { s.host with running := running, controlMode := controlMode }))) := by
  unfold step runNext at h
  cases hq : s.inbox with
  | nil =>
    rw [hq] at h
    cases h
    exact .inl ⟨rfl, rfl⟩
  | cons e rest =>
    rw [hq] at h
    refine .inr ⟨e, rest, rfl, ?_⟩
    simp only at h
    split at h
    next hh => cases h; exact .inl ⟨hh, rfl⟩
    next hh =>
      refine .inr ⟨Bool.eq_false_iff.2 hh, ?_⟩
      simp only [runAction] at h
      cases ha : e.action with
      | op r =>
        simp only [ha] at h
        cases hd : decode r with
        | error _ => rw [hd] at h; cases h
        | ok i =>
          simp only [hd, runOperation] at h
          cases hx : exec i (admitEvent e (s.withInbox rest)) with
          | next u =>
            rw [hx] at h
            cases h
            exact .inl ⟨r, i, u, rfl, hd, hx, rfl⟩
          | fault _ => rw [hx] at h; cases h
          | refused _ => rw [hx] at h; cases h
      | coreStore a b =>
        simp only [ha] at h
        cases h
        exact .inr (.inl ⟨a, b, rfl, rfl⟩)
      | hostFlags r c =>
        simp only [ha] at h
        cases h
        exact .inr (.inr ⟨r, c, rfl, by rw [(admitEvent_leaves e (s.withInbox rest)).2.2.2.2.2.2.1]; rfl⟩)

end Sys2Proof.Machine
end

