-- ==== Sys2Proof/Tests/Slice0.lean ====
section
/-! SUPPORT. The model's own tests: ill-formed terms refused, every operation decoded from bits written out from the
spec's encodings, one-step vectors of 95_test_vectors.md, and a witness for the hypotheses of every obligation. -/

namespace Sys2Proof.Tests
open Sys2Proof Sys2Proof.Machine

set_option Elab.async false

/-! ## Helpers -/

/-- Configuration T0 of 95_test_vectors.md: the defaults, with test-only values for the OPEN parameters. -/
def t0 : Config := { standardConfig with
  vsyncPeriod60 := 46080
  vsyncPeriod50 := 55296
  baudDivisor := Vector.ofFn fun i => i.val + 1
  baudResetPeriod := 320
  nvrDefaultImage := Vector.ofFn fun i => BitVec.ofNat 14 (0x1000 + i.val)
  isBlanked := Vector.replicate 256 false
  lineAttrs := #v[.doubleHeightBottom, .doubleHeightTop, .doubleWidth, .normal]
  maxLines := 25
  attrBlinkBit := 0
  attrUnderlineBit := 1
  attrBoldBit := 2
  attrAltBit := 3
  ctrlGlyph := Vector.ofFn fun i => .surface i.val
  latinGlyph := Vector.ofFn fun i => .surface (100 + i.val)
  setupAMarker := #v[0x53, 0x45, 0x54, 0x2D, 0x55, 0x50, 0x20, 0x41, 0x20]
  setupBMarker := #v[0x53, 0x45, 0x54, 0x2D, 0x55, 0x50, 0x20, 0x42, 0x20] }

/-- T0 without the enhanced-attribute option. -/
def noAvo : Config := { t0 with avoEnabled := false }

/-- Host answers with nothing to read. -/
def quiet : HostInputs where
  ptyOpen := some 1
  ptyWriteOk := true
  nvrSaveOk := true
  ptyRead := none
  childExited := false
  kbdReady := false
  kbdLatch := 0
  unlistedByte := 0
  intlActive := false
  surfaceLatin := false

/-- The reset state under a configuration, no file, with given host answers. -/
def at0 (c : Config) (x : HostInputs) : State := (State.resetWith c none true false).withInputs x

/-- Reset under T0. -/
def r0 : State := at0 t0 quiet

/-- Reset under T0 with some memory. -/
def withBytes (c : Config) (m : List Host.Cell) : State := (at0 c quiet).withMem m

/-- The next state of an outcome, or a given one. -/
def nextOr (s : State) (o : Answer) : State :=
  match o with
  | .next t => t
  | .fault _ => s
  | .refused _ => s

/-- Operations one after the other, refusals skipped. -/
def after (l : List Instr) (s : State) : State := l.foldl (fun t i => nextOr t (exec i t)) s

/-- Reset with the serial controller in the normal phase and a channel. -/
def online (ch : Channel) : State := r0.withSer { r0.ser with modeSelectMode := false, channel := ch }

/-! ## WellFormed smoke -/

/-- 0x42 is a listed read port (R102). -/
theorem test_wf_in_listed : (Instr.inOther 0x42).wellFormed = false := by decide
/-- 0x62 is a listed write port (R102). -/
theorem test_wf_out_listed : (Instr.outOther 0x62 1).wellFormed = false := by decide
/-- 0x7F is the terminator, never a character byte (R289). -/
theorem test_wf_terminator : (Instr.vidChar 0x2000 0x7F).wellFormed = false := by decide
/-- 0x62 is no listed read port, 0x43 no listed write port, 0xFF a character (R102, R294). -/
theorem test_wf_accepts : (Instr.inOther 0x62).wellFormed = true ∧ (Instr.outOther 0x43 1).wellFormed = true ∧
    (Instr.vidChar 0x2000 0xFF).wellFormed = true := by decide

/-! ## Decoding, bits written out from 30_encoding.md -/

/-- The eight rows of the command table, `xxxxcccd` (R103, R104). -/
theorem test_decode_nvrlatch :
    decode (.bytes .nvrLatch [0b00000000]) = .ok .nvrStandby ∧
    decode (.bytes .nvrLatch [0b00000011]) = .ok (.nvrAcceptAddr true) ∧
    decode (.bytes .nvrLatch [0b00000010]) = .ok (.nvrAcceptAddr false) ∧
    decode (.bytes .nvrLatch [0b00000100]) = .ok .nvrErase ∧
    decode (.bytes .nvrLatch [0b00000111]) = .ok (.nvrAcceptData true) ∧
    decode (.bytes .nvrLatch [0b00001000]) = .ok .nvrWrite ∧
    decode (.bytes .nvrLatch [0b00001010]) = .ok .nvrRead ∧
    decode (.bytes .nvrLatch [0b11111101]) = .ok .nvrShiftOut ∧
    decode (.bytes .nvrLatch [0b00001110]) = .ok .nvrUnused := by decide

/-- The port map, reads: bit 8 of the word clear (R101, R102). -/
theorem test_decode_port_reads :
    decode (.bytes .port [0x00, 0]) = .ok .in00 ∧ decode (.bytes .port [0x01, 0]) = .ok .in01 ∧
    decode (.bytes .port [0x42, 0]) = .ok .in42 ∧ decode (.bytes .port [0x82, 0]) = .ok .in82 ∧
    decode (.bytes .port [0x02, 0]) = .ok (.inOther 0x02) := by decide

/-- The port map, writes: bit 8 of the word set, then the data byte (R101, R102). -/
theorem test_decode_port_writes :
    decode (.bytes .port [0x00, 1, 0x41]) = .ok (.out00 0x41) ∧
    decode (.bytes .port [0x01, 1, 0x27]) = .ok (.out01 0x27) ∧
    decode (.bytes .port [0x02, 1, 0xF2]) = .ok (.out02 0xF2) ∧
    decode (.bytes .port [0x42, 1, 0x0F]) = .ok (.out42 0x0F) ∧
    decode (.bytes .port [0x62, 1, 0x03]) = .ok (.out62 0x03) ∧
    decode (.bytes .port [0x82, 1, 0x80]) = .ok (.out82 0x80) ∧
    decode (.bytes .port [0xA2, 1, 0x0A]) = .ok (.outA2 0x0A) ∧
    decode (.bytes .port [0xC2, 1, 0x30]) = .ok (.outC2 0x30) ∧
    decode (.bytes .port [0x43, 1, 0xFF]) = .ok (.outOther 0x43 0xFF) := by decide

/-- The default decode of port 0xA2, low nibble (R116). -/
theorem test_decode_a2 :
    decode (.bytes .a2 [0b00000011]) = .ok (.a2ScrollLo 3) ∧ decode (.bytes .a2 [0b00000110]) = .ok (.a2ScrollHi 2) ∧
    decode (.bytes .a2 [0b00001000]) = .ok .a2BlinkToggle ∧ decode (.bytes .a2 [0b00001001]) = .ok .a2Nop ∧
    decode (.bytes .a2 [0b11111010]) = .ok .a2ReverseOn ∧ decode (.bytes .a2 [0b00001011]) = .ok .a2ReverseOff ∧
    decode (.bytes .a2 [0b00001100]) = .ok .a2BaseUnderline ∧
    decode (.bytes .a2 [0b00001101]) = .ok .a2BaseReverse ∧
    decode (.bytes .a2 [0b00001110]) = .ok .a2NopReserved ∧
    decode (.bytes .a2 [0b00001111]) = .ok .a2NopReserved := by decide

/-- The default decode of port 0xC2, bits 5:4 (R117). -/
theorem test_decode_c2 :
    decode (.bytes .c2 [0b00000000]) = .ok .c2Cols80 ∧ decode (.bytes .c2 [0b11011111]) = .ok .c2Cols132 ∧
    decode (.bytes .c2 [0b00100000]) = .ok .c2Hz60 ∧ decode (.bytes .c2 [0b00110000]) = .ok .c2Hz50 := by decide

/-- Serial bytes and a character byte with its address (R109, R110, R112, R118). -/
theorem test_decode_serial_and_char :
    decode (.bytes .serMode [0x4E]) = .ok (.serWmode 0x4E) ∧ decode (.bytes .serCmd [0x27]) = .ok (.serWcmd 0x27) ∧
    decode (.bytes .serData [0x6C]) = .ok (.serWdata 0x6C) ∧
    decode (.bytes .char [0xC1, 0x05, 0x20]) = .ok (.vidChar 0x2005 0xC1) := by decide

/-- Operations with no encoding come by name; one that has an encoding does not. -/
theorem test_decode_named :
    decode (.call (.sigAdv .lba4 11)) = .ok (.sigAdv .lba4 11) ∧
    decode (.call (.sigSetp .baud 160)) = .ok (.sigSetp .baud 160) ∧ decode (.call .nvrClk) = .ok .nvrClk ∧
    decode (.call .serRdata) = .ok .serRdata ∧ decode (.call .serRstat) = .ok .serRstat ∧
    decode (.call .serClk) = .ok .serClk ∧ decode (.call (.serWcols true)) = .ok (.serWcols true) ∧
    decode (.call (.step 91)) = .ok (.step 91) ∧ decode (.call (.irqRaise .serial)) = .ok (.irqRaise .serial) ∧
    decode (.call .irqAck) = .ok .irqAck ∧ decode (.call .irqFallback) = .ok .irqFallback ∧
    decode (.call .vidRefresh) = .ok .vidRefresh ∧ decode (.call (.vidLine 0x2000)) = .ok (.vidLine 0x2000) ∧
    decode (.call (.vidDesc 0x2002)) = .ok (.vidDesc 0x2002) ∧
    decode (.call (.vidSetup 1 [])) = .ok (.vidSetup 1 []) ∧
    decode (.call .nvrErase) = .error .hasEncoding := by decide

/-- What is no operation is refused by name. -/
theorem test_decode_refuses :
    decode (.bytes .port [0x42]) = .error (.tooShort .port) ∧
    decode (.bytes .port [0x62, 1]) = .error (.tooShort .port) ∧
    decode (.bytes .port [0x42, 2]) = .error (.portWordTooWide 2) ∧
    decode (.bytes .char [0x7F, 0, 0x20]) = .error .terminator := by decide

/-- The two bytes of vector V2. -/
theorem test_decode_desc : decodeDesc 0xF2 0xD0 =
    { scroll := true, attrCode := 3, bank := true, offHi := 2, offLo := 0xD0 } := by decide

/-- Words as the opcode table numbers them: `OUT 0x42` is 0x142. -/
theorem test_table_words : decodeTableWord 16 0x142 = some (.out42 0) ∧ decodeTableWord 16 0x042 = some .in42 ∧
    decodeTableWord 8 0x0A = some .nvrRead ∧ decodeTableWord 8 0x0B = some .a2ReverseOff ∧
    decodeTableWord 8 0x30 = some .c2Hz50 := by decide

/-- A word of the table runs as the first operation after reset. -/
theorem test_table_word_runs : step (State.reset.withFetchWord 16 0x142) = .next (
    setBrightness 0 ((admitAnswers none (State.reset.withInbox [])).withInsideStep true)) := by rfl

/-! ## Signal generator (vectors S1, S3, S6, S10) -/

/-- S1: a flip at equality. -/
theorem test_sig_equality : ({ periodHalf := 11, ticks := 7, value := false } : Signal).advance 4 =
    { signal := { periodHalf := 11, ticks := 0, value := true }, toggled := true, rose := true } := by decide
/-- S3: one flip only, the excess kept. -/
theorem test_sig_excess : ({ periodHalf := 11, ticks := 0, value := false } : Signal).advance 30 =
    { signal := { periodHalf := 11, ticks := 19, value := true }, toggled := true, rose := true } := by decide
/-- S9: an odd period rounds down. -/
theorem test_setp_odd : (after [.sigSetp .baud 23] r0).sig.baud = { periodHalf := 11, ticks := 0, value := false } := by
  decide

/-! ## NVRAM (vectors N1 to N18) -/

/-- N1 to N4. -/
theorem test_decode_addr : (decodeAddr 0xFFFFF).val = 0 ∧ (decodeAddr 0x00000).val = 99 ∧
    (decodeAddr 0xFF3F9).val = 12 ∧ (decodeAddr 0xFFC00).val = 9 ∧ (decodeAddr 0x003FF).val = 90 := by decide +kernel

/-- A chip with given registers. -/
def chip (a : BitVec 20) (d : CellWord) : State := r0.withNvr { r0.nvr with addressReg := a, dataReg := d }

/-- N5. -/
theorem test_accept_addr : (after [.nvrAcceptAddr true] (chip 0xF7FF7 0)).nvr.addressReg = 0xEFFEF ∧
    (after [.nvrAcceptAddr false] (chip 0xF7FF7 0)).nvr.addressReg = 0xEFFEE := by decide +kernel
/-- N7. -/
theorem test_accept_data : (after [.nvrAcceptData true] (chip 0 0x2AAA)).nvr.dataReg = 0x1555 := by decide +kernel
/-- N8. -/
theorem test_shift_out : (after [.nvrShiftOut] (chip 0 0x2001)).nvr.out = true ∧
    (after [.nvrShiftOut] (chip 0 0x2001)).nvr.dataReg = 0x0002 := by decide +kernel
/-- N10: stored, not persisted below the threshold. -/
theorem test_write_low : (after [.nvrWrite] (chip 0xFF3F9 0x42)).nvr.contents[12] = 0x42 ∧
    (after [.nvrWrite] (chip 0xFF3F9 0x42)).events = r0.events := by decide +kernel
/-- E2: persisted at cell 53. -/
theorem test_write_high : (after [.nvrWrite] (chip 0xF7FF7 0x1234)).nvr.lastWrite = some (53, 0x1234) ∧
    (after [.nvrWrite] (chip 0xF7FF7 0x1234)).events.length = r0.events.length + 1 := by decide +kernel
/-- R331, U12: a file that cannot be written is logged after the persist event, and the cell is stored all the same. -/
theorem test_save_failure :
    (after [.nvrWrite] ((chip 0xF7FF7 0x1234).withInputs { quiet with nvrSaveOk := false })).events.head? =
      some (.log .nvrSaveFailed) ∧
    (after [.nvrWrite] ((chip 0xF7FF7 0x1234).withInputs { quiet with nvrSaveOk := false })).nvr.contents[53] = 0x1234 := by
  decide +kernel
/-- A layout that R103 allows beside the default: the data bit inverted, the code in bits 7:5. -/
def invertedLatch : Config := { t0 with
  latch := .table (Vector.ofFn fun i => decide (i.val % 2 = 0)) (Vector.ofFn fun i => BitVec.ofNat 3 (i.val / 32)) }
/-- Under it ACCEPT_ADDR with bit 1 is 0x20, and the least byte of STANDBY with data bit 0 is 1 (R50). -/
theorem test_latch_layout :
    (after [.nvrClk] ((at0 invertedLatch quiet).withNvr { r0.nvr with latch := 0x20 })).nvr.addressReg = 1 ∧
    (at0 invertedLatch quiet).nvr.latch = 1 ∧ r0.nvr.latch = 0 := by decide +kernel
/-- N18. -/
theorem test_erase : (after [.nvrErase] (chip 0xF7FF7 0)).nvr.contents[53] = 0x3FFF ∧
    (after [.nvrErase] (chip 0xF7FF7 0)).nvr.lastWrite = none := by decide +kernel
/-- N14, on the T0 image. -/
theorem test_read : (after [.nvrRead] (chip 0xF7FF7 0)).nvr.dataReg = 0x1035 := by decide +kernel
/-- N17: bits 7:4 of the latch are ignored. -/
theorem test_clk_latched : (after [.nvrClk] (r0.withNvr { r0.nvr with latch := 0xF3 })).nvr.addressReg = 1 := by
  decide +kernel

/-! ## Serial controller (vectors X1 to X22) -/

/-- X1: bit 6 of a mode byte does not keep the mode-select phase. -/
theorem test_mode_byte : (after [.out01 0x40] r0).ser.mode = 0x40 ∧
    (after [.out01 0x40] r0).ser.modeSelectMode = false := by decide
/-- X2, X5. -/
theorem test_command : (after [.out01 0x27] (online .closed)).ser.channel = .opened 1 ∧
    (after [.out01 0x25] (online (.opened 1))).ser.channel = .closed := by decide
/-- X9, X10. -/
theorem test_data_special : (after [.out00 0x03] (online (.opened 1))).events.head? = some (.ptyFlush 1) ∧
    (after [.out00 0x13] (online .closed)).ser.xoff = true := by decide
/-- X12: a write error closes the channel. -/
theorem test_write_error : (after [.serWdata 0x41]
    ((online (.opened 1)).withInputs { quiet with ptyWriteOk := false })).ser.channel = .closed := by decide
/-- X14. -/
theorem test_status_and_data :
    (after [.in01] (r0.withSer { r0.ser with rxByte := 0x6C, rxReady := true })).result = .byte 0xC3 ∧
    (after [.in00] (r0.withSer { r0.ser with rxByte := 0x6C, rxReady := true })).result = .byte 0x6C := by decide
/-- X15, X19. -/
theorem test_ser_clk :
    (after [.serClk] ((online (.opened 1)).withInputs { quiet with ptyRead := some 0x24 })).ser.rxByte = 0x24 ∧
    (after [.serClk] ((online (.opened 1)).withInputs { quiet with childExited := true })).result = .flag true := by
  decide
/-- X21, X22. -/
theorem test_wcols : (after [.serWcols true] (online (.opened 1))).events.head? = some (.ptyResize 1 24 132) ∧
    (after [.serWcols true] (online .closed)).ser.columnsWide = true := by decide

/-! ## Ports and fabric (vectors F1 to F16, I1 to I8) -/

/-- F1. -/
theorem test_baud : (after [.out02 0xF2] (r0.withSig { r0.sig with baud := { r0.sig.baud with ticks := 100 } })).sig.baud =
    { periodHalf := 240, ticks := 100, value := false } := by decide
/-- F2. -/
theorem test_flags_f2 : flagsByte ((r0.withNvr { r0.nvr with out := true }).withInputs { quiet with kbdReady := true }) =
    0xA5 := by decide
/-- F3. -/
theorem test_flags_f3 : flagsByte ((at0 noAvo quiet).withSig { r0.sig with vsync := { r0.sig.vsync with value := true } }) =
    0x17 := by decide
/-- F5. -/
theorem test_scroll : (after [.outA2 0x03] r0).disp.scrollLatch = 0x3 ∧
    (after [.outA2 0x06] (r0.withDisp { r0.disp with scrollLatch := 3 })).disp.scrollLatch = 0xB := by decide
/-- R42: a latch of two bits holds only the low half. -/
theorem test_scroll_width :
    (after [.outA2 0x03, .outA2 0x06] (at0 { t0 with scrollLatchBits := 2 } quiet)).disp.scrollLatch = 3 := by decide
/-- F7. -/
theorem test_base_underline : (after [.outA2 0x0C] (r0.withDisp { r0.disp with blinkFf := true })).disp =
    { r0.disp with baseAttr := .underline } := by decide
/-- F10. -/
theorem test_cols132 : (after [.outC2 0x10] (online (.opened 1))).disp.columns132 = true ∧
    (after [.outC2 0x10] (online (.opened 1))).events.head? = some (.ptyResize 1 24 132) := by decide
/-- F11. -/
theorem test_hz50 : (after [.outC2 0x30]
    (r0.withSig { r0.sig with vsync := { r0.sig.vsync with ticks := 500 } })).sig.vsync =
    { periodHalf := 27648, ticks := 500, value := false } := by decide
/-- F12. -/
theorem test_unlisted : (after [.inOther 0x62] r0).events.head? = some (.log (.unlistedRead 0x62)) ∧
    (after [.outOther 0x43 0xFF] r0).events.head? = some (.log (.unlistedWrite 0x43 0xFF)) := by decide
/-- F13. -/
theorem test_step_11 : (after [.step 11] r0).sig.lba4 = { periodHalf := 11, ticks := 0, value := true } ∧
    (after [.step 11] r0).events.head? = some .kbdClock := by decide +kernel
/-- F15. -/
theorem test_step_200 : (after [.step 200] r0).sig.lba7 = { periodHalf := 91, ticks := 109, value := true } ∧
    (after [.step 200] r0).sig.baud = { periodHalf := 160, ticks := 40, value := true } := by decide +kernel
/-- I3. -/
theorem test_irq_merge : (after [.irqRaise .vertical]
    (r0.withIof { r0.iof with intPending := true, intVector := 0xD7 })).iof.intVector = 0xF7 := by decide
/-- I5. -/
theorem test_irq_ack : (after [.irqAck] (r0.withIof { r0.iof with intPending := true, intVector := 0xF7 })).result =
    .byte 0xF7 := by decide
/-- I6: guarded, and not. -/
theorem test_irq_fallback :
    (after [.irqFallback] (r0.withIof { r0.iof with intPending := true, intVector := 0xD7 })).iof.intVector = 0xD7 ∧
    (after [.irqFallback] ((at0 { t0 with fallbackGuarded := false } quiet).withIof
      { r0.iof with intPending := true, intVector := 0xD7 })).iof.intVector = 0xC7 := by decide
/-- I8. -/
theorem test_irq_ack_refused : (match exec .irqAck r0 with
    | .refused .acknowledgeNotPending => true
    | _ => false) = true := by decide

/-! ## Video decoder (vectors V2 to V14, E7) -/

/-- V2. -/
theorem test_vid_desc : (after [.vidDesc 0x2000] (withBytes t0 [(0x2001, 0xF2), (0x2002, 0xD0)])).result =
    .descriptor 0x22D0 .normal true := by decide
/-- V6: remap first, then the reverse. -/
theorem test_vid_char : (vidChar ((at0 noAvo quiet).withDisp
    { r0.disp with baseAttr := .underline, screenReverse := true }) 0x2000 0xC1).inverse = true ∧
    (vidChar ((at0 noAvo quiet).withDisp
    { r0.disp with baseAttr := .underline, screenReverse := true }) 0x2000 0xC1).underline = true := by decide
/-- V8, V9. -/
theorem test_glyphs : (vidChar (at0 noAvo quiet) 0x2000 0x0D).glyph = .surface 13 ∧
    (vidChar (at0 noAvo quiet) 0x2000 0xFF).glyph = .direct 0x7F := by decide
/-- The memory of E7. -/
def hiLine : List Host.Cell := [(0x2000, 0x48), (0x2001, 0x49), (0x2002, 0x7F), (0x2003, 0x70), (0x2004, 0x00)]
/-- E7: one line of two cells, and the tick counter cleared. -/
theorem test_refresh : ((walk (withBytes noAvo hiLine)).1.map fun l => (l.start, l.cells.map (·.code))) =
    [(0x2000, [0x48, 0x49])] ∧
    (after [.vidRefresh] ((withBytes noAvo hiLine).withIof { r0.iof with refreshPending := 1 })).iof.refreshPending = 0 := by
  decide +kernel
/-- The scan of E7's line ends at its terminator. -/
theorem test_vid_line : (scanLine (withBytes noAvo hiLine) 65536 0x2000).map (·.2) = some 0x2002 := by decide +kernel
/-- The memory of V14. -/
def setupLines : List Host.Cell :=
  [(0x2000, 0x7F), (0x2001, 0x70), (0x2002, 0x10), (0x2010, 0x53), (0x2011, 0x45), (0x2012, 0x54), (0x2013, 0x2D),
    (0x2014, 0x55), (0x2015, 0x50), (0x2016, 0x20), (0x2017, 0x41), (0x2018, 0x20), (0x2019, 0x58), (0x201A, 0x7F),
    (0x201B, 0x70), (0x201C, 0x10)]
/-- V14, V15. -/
theorem test_setup : (walk (withBytes noAvo setupLines)).2 = .setupA ∧
    (walk ((withBytes noAvo setupLines).withDisp { r0.disp with scrollLatch := 3 })).2 = .none := by decide +kernel

/-! ## Memory -/

/-- A store of the core is read back, and its neighbour is not touched. -/
theorem test_core_store : memRead (coreStore 0xFFFF 0x41 (withBytes t0 [(0xFFFE, 0x42)])) 0xFFFE = 0x42 := by
  unfold coreStore memRead
  rw [State.withMem, Memory.read, Memory.write]
  split <;> rfl

/-! ## Witnesses: for the hypotheses of each obligation, a state and operands that meet them all -/

/-- SigSetpKeepsAccumulator: the accumulator is at the new half period. -/
theorem wit_setp : 10 / 2 ≤ ((r0.withSig { r0.sig with lba4 := { r0.sig.lba4 with ticks := 5 } }).sig.get .lba4).ticks ∧
    ∃ t, exec (.sigSetp .lba4 10) (r0.withSig { r0.sig with lba4 := { r0.sig.lba4 with ticks := 5 } }) = .next t :=
  ⟨by decide, _, rfl⟩

/-- SigSteadyStateCounts: the largest accumulator and delta it admits, from a low level. -/
theorem wit_steady : let g : Signal := { periodHalf := 11, ticks := 10, value := false }
    1 ≤ g.periodHalf ∧ g.ticks < g.periodHalf ∧ (∀ d ∈ [11, 0, 3], d ≤ g.periodHalf) ∧ g.value = false := by decide

/-- SigNeverLosesCycles: a half period of zero is that of a period below two. -/
theorem wit_zero_half : (Signal.changePeriod { periodHalf := 11, ticks := 0, value := false } 1).periodHalf = 0 := by decide

/-- NvrClkRunsLatchedCommand: the default layout and code map. -/
theorem wit_latch : r0.cfg.latch = .standard ∧ r0.cfg.nvrCommands = standardCommands := ⟨rfl, rfl⟩

/-- NvrReadProtocolReachesCell: the first and the last cell. -/
theorem wit_cell : (0 : Fin 100).val = 10 * (0 : Fin 10).val + (0 : Fin 10).val ∧
    (99 : Fin 100).val = 10 * (9 : Fin 10).val + (9 : Fin 10).val := by decide

/-- NvrWriteRepeatsAndErasedRewriteIsLost: any state is one. -/
theorem wit_write_erase : ∃ t u, exec .nvrWrite r0 = .next t ∧ exec .nvrErase t = .next u := ⟨_, _, rfl, rfl⟩

/-- A text of 99 good tokens and one that is no hexadecimal number. -/
def badLast : List Byte := (List.replicate 99 [0x30, 0x30, 0x30, 0x30, 0x20]).flatten ++ [0x31, 0x30, 0x67, 0x30]

/-- NvrLoadFallsBackWhole: too few tokens, and a bad token in the first place and in the last that counts. -/
theorem wit_load : (splitTokens [] [0x31, 0x30, 0x30, 0x30]).length < 100 ∧
    ((splitTokens [] [0x31, 0x30, 0x67, 0x30])[0]? = some [0x31, 0x30, 0x67, 0x30] ∧
      parseToken [0x31, 0x30, 0x67, 0x30] = none) ∧
    (splitTokens [] badLast)[99]? = some [0x31, 0x30, 0x67, 0x30] := by decide +kernel

/-- SerReadsDataAndStatus: the default status layout, with and without a byte pending. -/
theorem wit_status : r0.cfg.status = standardStatus ∧ r0.ser.rxReady = false ∧
    (r0.withSer { r0.ser with rxReady := true }).ser.rxReady = true := by decide

/-- SerFirstWriteIsModeSecondSpawns: reset, with a host that can open the pty. -/
theorem wit_first_write : r0.ser.modeSelectMode = true ∧ r0.ser.channel = .closed ∧ r0.inputs.ptyOpen = some 1 ∧
    (0x05 : Byte).getLsbD 0 = true ∧ (0x05 : Byte).getLsbD 2 = true := by decide

/-- SerialPortsSelectSerialOperations: either phase, and a RESET command. -/
theorem wit_phases : r0.ser.modeSelectMode = true ∧ (online .closed).ser.modeSelectMode = false ∧
    (0x67 : Byte).getLsbD 6 = true := by decide

/-- BaudWriteReprogramsBySource: the first and the last divisor, and the default scale. -/
theorem wit_baud : (0 : Fin 16).val = (0xF0 : Byte).toNat % 16 ∧ (15 : Fin 16).val = (0xFF : Byte).toNat % 16 ∧
    r0.cfg.baudScale = 160 := by decide

/-- FlagsByteCollectsSevenSources: the default layout. -/
theorem wit_flags : r0.cfg.flags = standardFlags := rfl

/-- PortsThatStoreOrForward: a latch write completes. -/
theorem wit_latch_write : ∃ t, exec (.out62 0x0A) r0 = .next t := ⟨_, rfl⟩

/-- IrqRaiseSetsPendingAndMerges: the default merge, and a raise that completes. -/
theorem wit_merge : r0.cfg.vecMerge = .orIn ∧ ∃ t, exec (.irqRaise .serial) r0 = .next t := ⟨rfl, _, rfl⟩

/-- IrqAckReturnsVectorOrIsRefused: pending and not. -/
theorem wit_ack : (after [.irqRaise .serial] r0).iof.intPending = true ∧ r0.iof.intPending = false := by decide

/-- OnlyEmptyAcknowledgeIsRefused: the refused case. -/
theorem wit_refused : exec .irqAck r0 = .refused .acknowledgeNotPending := rfl

/-- Reset with a byte to read, an open channel and every signal but one tick from its rise. -/
def rising : State := ((online (.opened 1)).withInputs { quiet with ptyRead := some 0x24 }).withSig
  { lba4 := { periodHalf := 11, ticks := 10, value := false }
    lba7 := { periodHalf := 91, ticks := 90, value := false }
    vsync := { periodHalf := 23040, ticks := 23039, value := false }
    baud := { periodHalf := 80, ticks := 79, value := false } }

/-- StepClocksUnitsOnRisingTransitions: every signal rises and the serial clock is true; and none rises. -/
theorem wit_step_clocks :
    (∃ t c n, exec (.step 1) rising = .next t ∧ exec .serClk rising = .next c ∧ exec .nvrClk rising = .next n ∧
      c.result = .flag true) ∧
    (∀ x ∈ [SigId.lba4, .lba7, .vsync, .baud], sigRises x 1 rising = true ∧ sigRises x 0 rising = false) :=
  ⟨⟨_, _, _, rfl, rfl, rfl, rfl⟩, by decide⟩

/-- ControlModeForcedOnlyBySerialPhase: a step that forces control mode. -/
theorem wit_forced : ∃ t, exec (.step 1) (rising.withInputs { quiet with childExited := true }) = .next t ∧
    t.host.controlMode ≠ rising.host.controlMode := ⟨_, rfl, by decide⟩

/-- StepMergesRaisedSources: default merge and guard, nothing pending, the vector at its fallback. -/
theorem wit_step_merges : rising.cfg.vecMerge = .orIn ∧ rising.cfg.fallbackGuarded = true ∧
    (rising.iof.intPending = false → rising.iof.intVector = rising.cfg.vecFallback) ∧
    ∃ t c, exec (.step 1) rising = .next t ∧ exec .serClk rising = .next c :=
  ⟨rfl, rfl, fun _ => rfl, _, _, rfl, rfl⟩

/-- OnlyAcknowledgeClearsRequest: a pending request and a port write. -/
theorem wit_pending : ∃ t, exec (.outA2 0x09) (after [.irqRaise .serial] r0) = .next t ∧
    (after [.irqRaise .serial] r0).iof.intPending = true ∧ Instr.outA2 0x09 ≠ .irqAck := ⟨_, rfl, by decide, by decide⟩

/-- NoOperationWritesMemory, ControlModeForcedOnlyBySerialPhase: an operation that completes and keeps control mode. -/
theorem wit_completes : (∃ t, exec .vidRefresh (withBytes t0 hiLine) = .next t) ∧
    ∃ t, exec (.step 1) (rising.withHost { rising.host with controlMode := true }) = .next t ∧
      (rising.withHost { rising.host with controlMode := true }).host.controlMode = true := ⟨⟨_, rfl⟩, _, rfl, rfl⟩

/-- OnlyWritersChangeElements: an operation that is no writer of the element. -/
theorem wit_no_writer : (∃ t, exec (.out62 0x0A) r0 = .next t) ∧ mayWrite .nvrAddress (.out62 0x0A) = false :=
  ⟨⟨_, rfl⟩, rfl⟩

/-- VidLineScansToFirstTerminator: both alternatives occur. -/
theorem wit_line : (∃ term, ((scanLine (withBytes noAvo hiLine) 3 0x2000).map (·.2)) = some term) ∧
    (scanLine (withBytes noAvo hiLine) 2 0x2000) = none := ⟨⟨0x2002, by decide +kernel⟩, by decide +kernel⟩

/-- VidDescAssemblesNextLine: the bytes of V2, and their conditions both ways. -/
theorem wit_desc : (0xF2 : Nat) = (memRead (withBytes t0 [(0x2001, 0xF2), (0x2002, 0xD0)]) 0x2001).toNat ∧
    (0xD0 : Nat) = (memRead (withBytes t0 [(0x2001, 0xF2), (0x2002, 0xD0)]) 0x2002).toNat := by decide

/-- VidCharRendersAttributes: with and without the option, and both base attributes. -/
theorem wit_attributes : r0.cfg.avoEnabled = true ∧ (at0 noAvo quiet).cfg.avoEnabled = false ∧
    r0.disp.baseAttr = .reverse ∧ (after [.a2BaseUnderline] r0).disp.baseAttr = .underline := by decide

/-- VidCharChoosesGlyph: each of the three tables, at the bounds of the control range. -/
theorem wit_glyph :
    ((127 : Fin 128).val = (0xFF : Byte).toNat % 128 ∧
      (r0.withInputs { quiet with intlActive := true, surfaceLatin := true }).inputs.intlActive = true) ∧
    ((31 : Fin 32).val = (0x1F : Byte).toNat % 128 ∧ ¬(r0.inputs.intlActive = true ∧ r0.inputs.surfaceLatin = true)) ∧
    32 ≤ (0xA0 : Byte).toNat % 128 := by decide

/-- The cells of line 1 of V14. -/
def markerCells : List GlyphCell := (List.range 9).map fun k =>
  vidChar (withBytes noAvo setupLines) (0x2010 + BitVec.ofNat 16 k) 0x20

/-- VidSetupRecognisesMarkers: set-up A, another line, too few cells. -/
theorem wit_setup : (1 : Nat) = (withBytes noAvo setupLines).cfg.setupLineIndex ∧
    (withBytes noAvo setupLines).disp.scrollLatch = 0 ∧ 9 ≤ markerCells.length ∧ (markerCells.drop 1).length < 9 ∧
    (markerCells.take 9).map (fun c => memRead (withBytes noAvo setupLines) c.addr) =
      (withBytes noAvo setupLines).cfg.setupAMarker.toList := by decide +kernel

/-- VidSetupRecognisesMarkers: set-up B, and neither. -/
theorem wit_setup_other :
    (markerCells.take 9).map (fun c => memRead
      (withBytes { noAvo with setupAMarker := t0.setupBMarker, setupBMarker := t0.setupAMarker } setupLines) c.addr) =
        t0.setupAMarker.toList ∧
    (markerCells.take 9).map (fun c => memRead (withBytes noAvo setupLines) c.addr) ≠ t0.setupBMarker.toList := by
  decide +kernel

/-- WalkFollowsDescriptorsWithinBound: two lines of V14, the second after the first. -/
theorem wit_walk : (((walk (withBytes noAvo setupLines)).1[0]?).map (·.start)) = some 0x2000 ∧
    (((walk (withBytes noAvo setupLines)).1[0 + 1]?).map (·.start)) = some 0x2010 := by decide +kernel

/-- WalkStopsAtSelfLoopOrBound: a self-loop ends V14's frame, and a frame may be empty. -/
theorem wit_walk_stops : (walk (withBytes noAvo setupLines)).1.length = 1 + 1 ∧
    (vidDesc (withBytes noAvo setupLines) 0x201A).next = 0x2010 ∧
    (walk (withBytes { noAvo with maxLineBytes := 1 } hiLine)).1 = [] := by decide +kernel

/-- DecodeEncodeRoundTrip: an operation with bytes. -/
theorem wit_encode : (Instr.outOther 0x43 0xFF).wellFormed = true ∧
    encode (.outOther 0x43 0xFF) = .bytes .port [0x43, 1, 0xFF] := by decide

/-- WalkStopsAtSelfLoopOrBound: the frame ends at the bound, and before a line with no terminator in the bound. -/
theorem wit_walk_bounds :
    (walk (withBytes { noAvo with maxLines := 1 } setupLines)).1.length = 0 + 1 ∧
    (vidDesc (withBytes { noAvo with maxLines := 1 } setupLines) 0x2000).next = 0x2010 ∧
    (walk (withBytes { noAvo with maxLineBytes := 4 } setupLines)).1.length = 0 + 1 ∧
    vidLine (withBytes { noAvo with maxLineBytes := 4 } setupLines) 0x2010 = none := by decide +kernel

/-- A queue of one event. -/
def queued (a : Action) (x : Option HostInputs) : State := r0.withInbox [{ action := a, answers := x }]

/-- StepRunsDecodedInstruction: an empty queue, an operation with and without given answers, a STEP, a store, flags. -/
theorem wit_step : r0.inbox = [] ∧
    decode (.bytes .port [0x42, 1, 0x0F]) = .ok (.out42 0x0F) ∧ (∀ d, Instr.out42 0x0F ≠ .step d) ∧
    (∃ t, step (queued (.op (.bytes .port [0x42, 1, 0x0F])) (some quiet)) = .next t) ∧
    (∃ t, step (queued (.op (.call (.step 91))) none) = .next t) ∧
    (∃ t, step (queued (.coreStore 0x2000 0x41) none) = .next t) ∧
    ∃ t, step (queued (.hostFlags false true) none) = .next t :=
  ⟨rfl, by decide, nofun, ⟨_, rfl⟩, ⟨_, rfl⟩, ⟨_, rfl⟩, _, rfl⟩

/-- StepRunsDecodedInstruction: a request that is no operation, and video operations between steps and inside one. -/
theorem wit_step_other :
    decode (.bytes .port [0x42, 2]) = .error (.portWordTooWide 2) ∧ isVideo (.vidDesc 0x2002) = true ∧
    isVideo (.out42 0x0F) = false ∧ decode (.call .vidRefresh) = .ok .vidRefresh ∧
    (queued (.op (.call .vidRefresh)) (some quiet)).iof.refreshPending = 0 ∧
    (queued (.op (.call .vidRefresh)) (some quiet)).insideStep = false ∧
    0 < ((queued (.op (.call .vidRefresh)) (some quiet)).withIof { r0.iof with refreshPending := 1 }).iof.refreshPending ∧
    (after [] ((queued (.op (.call .vidRefresh)) (some quiet)).withInsideStep true)).insideStep = true ∧
    Memory.wf r0.mem :=
  ⟨by decide, rfl, rfl, by decide, rfl, rfl, by decide, rfl, List.Pairwise.nil, nofun⟩

/-- R282, R377: a refresh asked for with no tick pending waits; with one it runs. -/
theorem test_refresh_needs_tick :
    (nextOr r0 (step (queued (.op (.call .vidRefresh)) (some quiet)))).held.length = 1 ∧
    (nextOr r0 (step (queued (.op (.call .vidRefresh)) (some quiet)))).result = .none ∧
    (nextOr r0 (step ((queued (.op (.call .vidRefresh)) (some quiet)).withIof
      { r0.iof with refreshPending := 2 }))).iof.refreshPending = 0 := by decide +kernel

/-- R79 (d): a refresh asked for inside a step makes no frame and waits; the step's end puts it next. -/
theorem test_refresh_waits :
    (nextOr r0 (step ((queued (.op (.call .vidRefresh)) (some quiet)).withInsideStep true))).result = .none ∧
    (nextOr r0 (step ((queued (.op (.call .vidRefresh)) (some quiet)).withInsideStep true))).held.length = 1 ∧
    (nextOr r0 (step (((queued (.op (.call (.step 0))) (some quiet)).withInsideStep true).withHeld
      [{ action := .op (.call .vidRefresh), answers := none }]))).inbox =
        [{ action := .op (.call .vidRefresh), answers := none }] := by decide +kernel

/-- StepKeepsInvariant, ResetMeetsInvariants, ResetValuesOfTheTable: T0 is well formed and its reset meets the
invariant. -/
theorem wit_inv : t0.WF ∧ (queued (.op (.call (.step 91))) (some quiet)).Inv := by
  refine ⟨by decide, ⟨List.Pairwise.nil, ?_⟩, fun _ => rfl, by decide⟩
  intro x h
  cases h

/-- ResetValuesOfTheTable: a file that parses (a hundred zero cells), and no file. -/
theorem wit_file : (parseNvrFile (List.replicate 100 [0x30, 0x30, 0x30, 0x30, 0x20]).flatten).map (·.toList) =
    some (List.replicate 100 0) := by decide +kernel

/-- ResetValuesOfTheTable: a file that exists and does not parse, and a layout with a byte of STANDBY and data bit 0. -/
theorem wit_bad_file : (parseNvrFile [0x31, 0x30, 0x67, 0x30]).isNone = true ∧
    (nvrCommandOf invertedLatch (nvrCode invertedLatch 1) = .standby ∧ nvrDataBit invertedLatch 1 = false) := by
  decide +kernel

/-- StepKeepsInvariant: inside a step, with a request of the host waiting. -/
theorem wit_inv_held : (((queued (.op (.call (.step 0))) (some quiet)).withInsideStep true).withHeld
    [{ action := .op (.call .vidRefresh), answers := none }]).Inv := by
  refine ⟨⟨List.Pairwise.nil, nofun⟩, fun _ => rfl, by decide, by decide, nofun, ?_⟩
  intro e h
  rw [List.mem_singleton.1 h]
  decide

/-- ExternalStepsKeepUnitsCoupled: a coupled state, an outside agent's request, a step that answers. -/
theorem wit_coupled : (queued (.op (.bytes .port [0xC2, 1, 0x30])) (some quiet)).Coupled ∧
    externalAction (.op (.bytes .port [0xC2, 1, 0x30])) = true ∧
    ∃ t, step (queued (.op (.bytes .port [0xC2, 1, 0x30])) (some quiet)) = .next t :=
  ⟨⟨rfl, rfl, rfl, .inr ⟨rfl, rfl⟩, rfl, fun _ => .inl rfl⟩, by decide, _, rfl⟩

end Sys2Proof.Tests
end

/-! PROOFS, family 00_scope: what no operation writes (00_scope.md R11, 20_memory.md R78), and the frame of a refresh. -/

namespace Sys2Proof.Machine

/-- A refresh writes the tick counter, the answer and the calls, and nothing else (R282, D35). -/
@[simp] theorem refresh_leaves (s : State) :
    (refresh s).cfg = s.cfg ∧
    (refresh s).sig = s.sig ∧
    (refresh s).nvr = s.nvr ∧
    (refresh s).ser = s.ser ∧
    (refresh s).disp = s.disp ∧
    (refresh s).host = s.host ∧
    (refresh s).mem = s.mem ∧
    (refresh s).inputs = s.inputs ∧
    (refresh s).draws = s.draws ∧
    (refresh s).inbox = s.inbox ∧
    (refresh s).insideStep = s.insideStep ∧
    (refresh s).held = s.held := by
  simp [refresh]

/-- A refresh clears the tick counter and keeps the rest of the fabric's record (R282, D35). -/
@[simp] theorem refresh_iof (s : State) : (refresh s).iof = { s.iof with refreshPending := 0 } := rfl

/-- An acknowledge that completes is that of a pending request (R341, U7). -/
theorem execIrqAck_next {s t : State} (h : execIrqAck s = .next t) :
    s.iof.intPending = true ∧ t = acknowledgeIrq s := by
  unfold execIrqAck at h
  split at h
  next hp =>
    cases h
    exact ⟨hp, rfl⟩
  next => cases h

/-- A line scan only answers, whether or not it finds a terminator (R284). -/
theorem execVidLine_next {start : Addr} {s t : State} (h : execVidLine start s = .next t) :
    ∃ r, t = s.answer r := by
  unfold execVidLine at h
  split at h <;> cases h <;> exact ⟨_, rfl⟩

/-- An operation that completes writes none of these: the configuration, the core's memory (R11, R78), and the model's
own elements (logs 1, 3, 6, 28, 35). -/
theorem exec_leaves {i : Instr} {s t : State} (h : exec i s = .next t) :
    t.cfg = s.cfg ∧ t.mem = s.mem ∧ t.inputs = s.inputs ∧ t.draws = s.draws ∧ t.inbox = s.inbox ∧
    t.insideStep = s.insideStep ∧ t.held = s.held := by
  cases i
  case irqAck =>
    obtain ⟨-, rfl⟩ := execIrqAck_next h
    simp
  case vidLine start =>
    obtain ⟨r, rfl⟩ := execVidLine_next h
    simp
  case outA2 v =>
    cases h
    simp [a2Fold_leaves]
  case outC2 v =>
    cases h
    simp [c2Fold_leaves]
  -- The other operations complete on every state, in shared operations whose frame lemmas are simp lemmas.
  all_goals
    cases h
    simp

/-- What the addresses read as depends on the list of memory only. -/
theorem memRead_congr {s t : State} (h : t.mem = s.mem) (a : Addr) : memRead t a = memRead s a := by
  unfold memRead
  rw [h]

/-- Settles O42: `exec_leaves` for every operation, and the frame lemmas of the refresh. -/
theorem noOperationWritesMemory : Obligations.NoOperationWritesMemory := by
  intro i s t h
  obtain ⟨hcfg, hmem, hinputs, -, hinbox, -, -⟩ := exec_leaves h
  refine ⟨memRead_congr hmem, hmem, hcfg, hinputs, hinbox, ?_⟩
  rintro rfl
  cases h
  simp

end Sys2Proof.Machine

/-! PROOFS, family 10_state: who may write what (10_state.md section 8). `OnlyWrites W s t` is the "modifies" clause of an
operation, W the elements it may write: one rule per part of the state, composed along the operations' definitions. -/

namespace Sys2Proof.Machine

/-- The elements outside W hold the same in both states. -/
def OnlyWrites (W : Element → Bool) (s t : State) : Prop :=
  ∀ e, W e = false → sameElement e s t

section
variable {W : Element → Bool} {s t u : State}

/-! ## Composition -/

theorem OnlyWrites.refl (s : State) : OnlyWrites W s s := by
  intro e _
  cases e <;> simp [sameElement]

theorem sameElement_trans {e : Element} (h : sameElement e s t) (k : sameElement e t u) : sameElement e s u := by
  cases e <;> simp_all [sameElement]

theorem OnlyWrites.trans (h : OnlyWrites W s t) (k : OnlyWrites W t u) : OnlyWrites W s u :=
  fun e he => sameElement_trans (h e he) (k e he)

/-- A list of decoded operations writes what one of them may write. -/
theorem foldl_onlyWrites {Op : Type} {run : Op → State → State} (h : ∀ op t, OnlyWrites W t (run op t))
    (ops : List Op) (s : State) : OnlyWrites W s (ops.foldl (fun t op => run op t) s) := by
  induction ops generalizing s with
  | nil => exact .refl s
  | cons op ops ih => exact (h op s).trans (ih (run op s))

/-! ## One rule per part of the state -/

/-- What an operation returns and calls outside is no element (log 7). -/
theorem record_onlyWrites (s : State) (r : Result) (es : List HostEvent) :
    OnlyWrites W s { s with result := r, events := es } := by
  intro e _
  cases e <;> simp [sameElement, memRead]

theorem answer_onlyWrites (s : State) (r : Result) : OnlyWrites W s (s.answer r) := record_onlyWrites s r s.events

theorem emit_onlyWrites (s : State) (ev : HostEvent) : OnlyWrites W s (s.emit ev) :=
  record_onlyWrites s s.result (ev :: s.events)

theorem emitIf_onlyWrites (s : State) (made : Bool) (ev : HostEvent) : OnlyWrites W s (s.emitIf made ev) :=
  record_onlyWrites s s.result (if made then ev :: s.events else s.events)

theorem putSignal_onlyWrites {x : SigId} {v : Signal}
    (hphase : W (.sigPhase x) = false → v.ticks = (s.sig.get x).ticks ∧ v.value = (s.sig.get x).value)
    (hperiod : W (.sigPeriod x) = false → v.periodHalf = (s.sig.get x).periodHalf) :
    OnlyWrites W s (s.withSig (s.sig.put x v)) := by
  intro e he
  cases e
  case sigPhase y =>
    rcases eq_or_ne x y with rfl | hxy
    · simpa [sameElement] using hphase he
    · simp [sameElement, Signals.get_put_other _ _ hxy]
  case sigPeriod y =>
    rcases eq_or_ne x y with rfl | hxy
    · simpa [sameElement] using hperiod he
    · simp [sameElement, Signals.get_put_other _ _ hxy]
  all_goals simp [sameElement, memRead]

theorem withNvr_onlyWrites {n : Nvr} (hlatch : W .nvrLatch = false → n.latch = s.nvr.latch)
    (haddress : W .nvrAddress = false → n.addressReg = s.nvr.addressReg)
    (hdata : W .nvrData = false → n.dataReg = s.nvr.dataReg)
    (hcontents : W .nvrContents = false → n.contents = s.nvr.contents)
    (hout : W .nvrOut = false → n.out = s.nvr.out)
    (hlast : W .nvrLastWrite = false → n.lastWrite = s.nvr.lastWrite) : OnlyWrites W s (s.withNvr n) := by
  intro e he
  cases e
  case nvrLatch => exact hlatch he
  case nvrAddress => exact haddress he
  case nvrData => exact hdata he
  case nvrContents => exact hcontents he
  case nvrOut => exact hout he
  case nvrLastWrite => exact hlast he
  all_goals simp [sameElement, memRead]

theorem withSer_onlyWrites {r : Ser}
    (hcontrol : W .serControl = false →
      r.mode = s.ser.mode ∧ r.command = s.ser.command ∧ r.modeSelectMode = s.ser.modeSelectMode)
    (hchannel : W .serChannel = false → r.channel = s.ser.channel)
    (hbyte : W .serRxByte = false → r.rxByte = s.ser.rxByte)
    (hready : W .serRxReady = false → r.rxReady = s.ser.rxReady)
    (hxoff : W .serXoff = false → r.xoff = s.ser.xoff)
    (hcolumns : W .serColumnsWide = false → r.columnsWide = s.ser.columnsWide) : OnlyWrites W s (s.withSer r) := by
  intro e he
  cases e
  case serControl => exact hcontrol he
  case serChannel => exact hchannel he
  case serRxByte => exact hbyte he
  case serRxReady => exact hready he
  case serXoff => exact hxoff he
  case serColumnsWide => exact hcolumns he
  all_goals simp [sameElement, memRead]

theorem withIof_onlyWrites {f : Iof} (hbaud : W .iofBaudReg = false → f.baudReg = s.iof.baudReg)
    (hinterrupt : W .iofInterrupt = false → f.intPending = s.iof.intPending ∧ f.intVector = s.iof.intVector)
    (hrefresh : W .iofRefreshPending = false → f.refreshPending = s.iof.refreshPending)
    (hserviced : W .iofServiced = false → f.servicedThisStep = s.iof.servicedThisStep) :
    OnlyWrites W s (s.withIof f) := by
  intro e he
  cases e
  case iofBaudReg => exact hbaud he
  case iofInterrupt => exact hinterrupt he
  case iofRefreshPending => exact hrefresh he
  case iofServiced => exact hserviced he
  all_goals simp [sameElement, memRead]

theorem withDisp_onlyWrites {d : Disp} (hbrightness : W .dispBrightness = false → d.brightness = s.disp.brightness)
    (ha2 : W .dispA2 = false → sameElement .dispA2 s (s.withDisp d))
    (hc2 : W .dispC2 = false → sameElement .dispC2 s (s.withDisp d)) : OnlyWrites W s (s.withDisp d) := by
  intro e he
  cases e
  case dispBrightness => exact hbrightness he
  case dispA2 => exact ha2 he
  case dispC2 => exact hc2 he
  all_goals simp [sameElement, memRead]

theorem withHost_onlyWrites {h : HostSide} (hcontrol : W .hostControlMode = false → h.controlMode = s.host.controlMode)
    (hrunning : h.running = s.host.running)
    (hpacing : W .hostPacing = false → h.pacingTicks = s.host.pacingTicks) : OnlyWrites W s (s.withHost h) := by
  intro e he
  cases e
  case hostControlMode => exact hcontrol he
  case hostRunning => exact hrunning
  case hostPacing => exact hpacing he
  all_goals simp [sameElement, memRead]

/-! ## Signal generator -/

theorem advanceSig_onlyWrites {x : SigId} (hphase : W (.sigPhase x) = true) (delta : Nat) (s : State) :
    OnlyWrites W s (advanceSig x delta s) :=
  putSignal_onlyWrites (by simp [hphase]) fun _ => (Signal.advance_spec _ _).2.1

theorem setPeriod_onlyWrites {x : SigId} (hperiod : W (.sigPeriod x) = true) (p : Nat) (s : State) :
    OnlyWrites W s (setPeriod x p s) :=
  putSignal_onlyWrites (fun _ => ⟨rfl, rfl⟩) (by simp [hperiod])

/-! ## NVRAM chip -/

theorem nvrAcceptAddr_onlyWrites (haddress : W .nvrAddress = true) (din : Bool) (s : State) :
    OnlyWrites W s (nvrAcceptAddr din s) := by
  apply withNvr_onlyWrites <;> simp [haddress]

theorem nvrErase_onlyWrites (hcontents : W .nvrContents = true) (s : State) : OnlyWrites W s (nvrErase s) := by
  apply withNvr_onlyWrites <;> simp [hcontents]

theorem nvrAcceptData_onlyWrites (hdata : W .nvrData = true) (din : Bool) (s : State) :
    OnlyWrites W s (nvrAcceptData din s) := by
  apply withNvr_onlyWrites <;> simp [hdata]

theorem nvrPersist_onlyWrites (table : Vector CellWord 100) (s : State) : OnlyWrites W s (nvrPersist table s) :=
  (emit_onlyWrites s _).trans (emitIf_onlyWrites _ _ _)

theorem nvrStore_onlyWrites (hcontents : W .nvrContents = true) (hlast : W .nvrLastWrite = true) (a : Fin 100)
    (d : CellWord) (s : State) : OnlyWrites W s (nvrStore a d s) := by
  have hset : OnlyWrites W s
      (s.withNvr { s.nvr with contents := s.nvr.contents.set a.val d, lastWrite := some (a, d) }) := by
    apply withNvr_onlyWrites <;> simp [hcontents, hlast]
  unfold nvrStore
  dsimp only
  split
  · exact hset.trans (nvrPersist_onlyWrites _ _)
  · exact hset

theorem nvrWrite_onlyWrites (hcontents : W .nvrContents = true) (hlast : W .nvrLastWrite = true) (s : State) :
    OnlyWrites W s (nvrWrite s) := by
  unfold nvrWrite
  split
  · exact .refl s
  · exact nvrStore_onlyWrites hcontents hlast _ _ s

theorem nvrRead_onlyWrites (hdata : W .nvrData = true) (s : State) : OnlyWrites W s (nvrRead s) := by
  apply withNvr_onlyWrites <;> simp [hdata]

theorem nvrShiftOut_onlyWrites (hdata : W .nvrData = true) (hout : W .nvrOut = true) (s : State) :
    OnlyWrites W s (nvrShiftOut s) := by
  apply withNvr_onlyWrites <;> simp [hdata, hout]

/-- A clock may run any command, and none writes the latch (R161, R163 to R171). -/
theorem nvrClock_onlyWrites (haddress : W .nvrAddress = true) (hdata : W .nvrData = true)
    (hcontents : W .nvrContents = true) (hout : W .nvrOut = true) (hlast : W .nvrLastWrite = true) (s : State) :
    OnlyWrites W s (nvrClock s) := by
  unfold nvrClock
  cases nvrCommandOf s.cfg (nvrCode s.cfg s.nvr.latch) with
  | standby => exact .refl s
  | acceptAddr => exact nvrAcceptAddr_onlyWrites haddress _ s
  | erase => exact nvrErase_onlyWrites hcontents s
  | acceptData => exact nvrAcceptData_onlyWrites hdata _ s
  | write => exact nvrWrite_onlyWrites hcontents hlast s
  | read => exact nvrRead_onlyWrites hdata s
  | shiftOut => exact nvrShiftOut_onlyWrites hdata hout s
  | unused => exact .refl s

/-! ## Serial controller -/

theorem setChannel_onlyWrites (hchannel : W .serChannel = true) (c : Channel) (s : State) :
    OnlyWrites W s (s.withSer { s.ser with channel := c }) := by
  apply withSer_onlyWrites <;> simp [hchannel]

theorem openChannel_onlyWrites (hchannel : W .serChannel = true) (s : State) : OnlyWrites W s (openChannel s) := by
  have hset (c : Channel) := (emit_onlyWrites s (.ptyOpen 24 80)).trans (setChannel_onlyWrites hchannel c _)
  unfold openChannel
  split
  · exact hset _
  · exact (hset _).trans (emit_onlyWrites _ _)

theorem closeChannel_onlyWrites (hchannel : W .serChannel = true) (s : State) : OnlyWrites W s (closeChannel s) := by
  unfold closeChannel
  split
  · exact (emit_onlyWrites s _).trans (setChannel_onlyWrites hchannel _ _)
  · exact .refl s

theorem serWriteMode_onlyWrites (hcontrol : W .serControl = true) (v : Byte) (s : State) :
    OnlyWrites W s (serWriteMode v s) := by
  apply withSer_onlyWrites <;> simp [hcontrol]

theorem serLatchCommand_onlyWrites (hcontrol : W .serControl = true) (v : Byte) (s : State) :
    OnlyWrites W s (serLatchCommand v s) := by
  apply withSer_onlyWrites <;> simp [hcontrol]

theorem serWriteCommand_onlyWrites (hcontrol : W .serControl = true) (hchannel : W .serChannel = true) (v : Byte)
    (s : State) : OnlyWrites W s (serWriteCommand v s) := by
  have hlatch := serLatchCommand_onlyWrites hcontrol v s
  unfold serWriteCommand
  split
  · split
    · exact hlatch.trans (openChannel_onlyWrites hchannel _)
    · exact hlatch
  · split
    · exact hlatch
    · exact hlatch.trans (closeChannel_onlyWrites hchannel _)

theorem serWriteControl_onlyWrites (hcontrol : W .serControl = true) (hchannel : W .serChannel = true) (v : Byte)
    (s : State) : OnlyWrites W s (serWriteControl v s) := by
  unfold serWriteControl
  split
  · exact serWriteMode_onlyWrites hcontrol v s
  · exact serWriteCommand_onlyWrites hcontrol hchannel v s

theorem serTransmit_onlyWrites (hchannel : W .serChannel = true) (h : Nat) (v : Byte) (s : State) :
    OnlyWrites W s (serTransmit h v s) := by
  have hwrite := emit_onlyWrites (W := W) s (.ptyWrite h v)
  unfold serTransmit
  split
  · exact hwrite
  · exact hwrite.trans (closeChannel_onlyWrites hchannel _)

theorem setXoff_onlyWrites (hxoff : W .serXoff = true) (b : Bool) (s : State) :
    OnlyWrites W s (s.withSer { s.ser with xoff := b }) := by
  apply withSer_onlyWrites <;> simp [hxoff]

theorem serWriteData_onlyWrites (hchannel : W .serChannel = true) (hxoff : W .serXoff = true) (v : Byte) (s : State) :
    OnlyWrites W s (serWriteData v s) := by
  unfold serWriteData
  split
  · split
    · exact emit_onlyWrites s _
    · exact .refl s
  split
  · exact setXoff_onlyWrites hxoff true s
  split
  · exact setXoff_onlyWrites hxoff false s
  split
  · exact serTransmit_onlyWrites hchannel _ v s
  · exact .refl s

theorem serReadData_onlyWrites (hready : W .serRxReady = true) (s : State) : OnlyWrites W s (serReadData s) := by
  have hclear : OnlyWrites W s (s.withSer { s.ser with rxReady := false }) := by
    apply withSer_onlyWrites <;> simp [hready]
  exact hclear.trans (answer_onlyWrites _ _)

theorem serPoll_onlyWrites (hchannel : W .serChannel = true) (hbyte : W .serRxByte = true)
    (hready : W .serRxReady = true) (h : Nat) (s : State) : OnlyWrites W s (serPoll h s) := by
  have hread := emit_onlyWrites (W := W) s (.ptyRead h)
  have hexit := hread.trans (emit_onlyWrites _ (.childExited h))
  unfold serPoll
  dsimp only
  split
  · refine hread.trans ?_
    apply withSer_onlyWrites <;> simp [hbyte, hready]
  split
  · exact hexit.trans (closeChannel_onlyWrites hchannel _)
  · exact hexit

theorem serClock_onlyWrites (hchannel : W .serChannel = true) (hbyte : W .serRxByte = true)
    (hready : W .serRxReady = true) (s : State) : OnlyWrites W s (serClock s) := by
  unfold serClock
  split
  · exact .refl s
  split
  · exact .refl s
  · exact serPoll_onlyWrites hchannel hbyte hready _ s

theorem serWriteCols_onlyWrites (hcolumns : W .serColumnsWide = true) (w : Bool) (s : State) :
    OnlyWrites W s (serWriteCols w s) := by
  have hset : OnlyWrites W s (s.withSer { s.ser with columnsWide := w }) := by
    apply withSer_onlyWrites <;> simp [hcolumns]
  unfold serWriteCols
  split
  · exact .refl s
  dsimp only
  split
  · exact hset.trans (emit_onlyWrites _ _)
  · exact hset

/-! ## Display registers and the baud register -/

theorem setBrightness_onlyWrites (hbrightness : W .dispBrightness = true) (v : Byte) (s : State) :
    OnlyWrites W s (setBrightness v s) := by
  apply withDisp_onlyWrites <;> simp [hbrightness, sameElement]

/-- The operations of port 0xA2 write the four display elements of its row (R242 to R249). -/
theorem a2Run_onlyWrites (ha2 : W .dispA2 = true) (op : A2Op) (s : State) : OnlyWrites W s (a2Run op s) := by
  cases op
  case nop => exact .refl s
  all_goals apply withDisp_onlyWrites <;> simp [ha2, sameElement]

theorem setColumns_onlyWrites (hc2 : W .dispC2 = true) (hcolumns : W .serColumnsWide = true) (wide : Bool) (s : State) :
    OnlyWrites W s (setColumns wide s) := by
  have hdisp : OnlyWrites W s (s.withDisp { s.disp with columns132 := wide, interlace := true }) := by
    apply withDisp_onlyWrites <;> simp [hc2, sameElement]
  exact hdisp.trans (serWriteCols_onlyWrites hcolumns wide _)

theorem setRefreshRate_onlyWrites (hc2 : W .dispC2 = true) (hperiod : W (.sigPeriod .vsync) = true) (hz50 : Bool)
    (s : State) : OnlyWrites W s (setRefreshRate hz50 s) := by
  have hdisp : OnlyWrites W s (s.withDisp { s.disp with refresh50hz := hz50, interlace := false }) := by
    apply withDisp_onlyWrites <;> simp [hc2, sameElement]
  exact hdisp.trans (setPeriod_onlyWrites hperiod _ _)

theorem c2Run_onlyWrites (hc2 : W .dispC2 = true) (hcolumns : W .serColumnsWide = true)
    (hperiod : W (.sigPeriod .vsync) = true) (op : C2Op) (s : State) : OnlyWrites W s (c2Run op s) := by
  cases op with
  | cols80 => exact setColumns_onlyWrites hc2 hcolumns false s
  | cols132 => exact setColumns_onlyWrites hc2 hcolumns true s
  | hz60 => exact setRefreshRate_onlyWrites hc2 hperiod false s
  | hz50 => exact setRefreshRate_onlyWrites hc2 hperiod true s

theorem writeBaud_onlyWrites (hbaud : W .iofBaudReg = true) (hperiod : W (.sigPeriod .baud) = true) (v : Byte)
    (s : State) : OnlyWrites W s (writeBaud v s) := by
  have hreg : OnlyWrites W s (s.withIof { s.iof with baudReg := v }) := by
    apply withIof_onlyWrites <;> simp [hbaud]
  exact hreg.trans (setPeriod_onlyWrites hperiod _ _)

/-! ## Interrupts and the refresh -/

theorem raiseIrq_onlyWrites (hinterrupt : W .iofInterrupt = true) (src : IrqSource) (s : State) :
    OnlyWrites W s (raiseIrq src s) := by
  apply withIof_onlyWrites <;> simp [hinterrupt]

theorem acknowledgeIrq_onlyWrites (hinterrupt : W .iofInterrupt = true) (hserviced : W .iofServiced = true)
    (s : State) : OnlyWrites W s (acknowledgeIrq s) := by
  refine OnlyWrites.trans ?_ (answer_onlyWrites _ _)
  apply withIof_onlyWrites <;> simp [hinterrupt, hserviced]

theorem fallbackIrq_onlyWrites (hinterrupt : W .iofInterrupt = true) (s : State) : OnlyWrites W s (fallbackIrq s) := by
  unfold fallbackIrq
  split
  · apply withIof_onlyWrites <;> simp [hinterrupt]
  · exact .refl s

theorem refresh_onlyWrites (hrefresh : W .iofRefreshPending = true) (s : State) : OnlyWrites W s (refresh s) := by
  have hclear : OnlyWrites W s (s.withIof { s.iof with refreshPending := 0 }) := by
    apply withIof_onlyWrites <;> simp [hrefresh]
  exact (hclear.trans (emit_onlyWrites _ _)).trans (answer_onlyWrites _ _)

/-! ## The peripheral phase -/

theorem pacePhase_onlyWrites (hpacing : W .hostPacing = true) (delta : Nat) (s : State) :
    OnlyWrites W s (pacePhase delta s) := by
  unfold pacePhase
  split
  · exact .refl s
  · apply withHost_onlyWrites <;> simp [hpacing]

theorem serialEvent_onlyWrites (hinterrupt : W .iofInterrupt = true) (hcontrol : W .hostControlMode = true)
    (s : State) : OnlyWrites W s (serialEvent s) := by
  have hraise := raiseIrq_onlyWrites hinterrupt .serial s
  unfold serialEvent
  split
  · refine hraise.trans ?_
    apply withHost_onlyWrites <;> simp [hcontrol]
  · exact hraise

theorem serialPhase_onlyWrites (hchannel : W .serChannel = true) (hbyte : W .serRxByte = true)
    (hready : W .serRxReady = true) (hinterrupt : W .iofInterrupt = true) (hcontrol : W .hostControlMode = true)
    (s : State) : OnlyWrites W s (serialPhase s) := by
  have hclock := serClock_onlyWrites hchannel hbyte hready s
  unfold serialPhase
  split
  · exact hclock.trans (serialEvent_onlyWrites hinterrupt hcontrol _)
  · exact hclock

theorem verticalPhase_onlyWrites (hinterrupt : W .iofInterrupt = true) (hrefresh : W .iofRefreshPending = true)
    (s : State) : OnlyWrites W s (verticalPhase s) := by
  refine (raiseIrq_onlyWrites hinterrupt .vertical s).trans ?_
  apply withIof_onlyWrites <;> simp [hrefresh]

theorem clockPhase_onlyWrites {x : SigId} {unit : State → State} (hphase : W (.sigPhase x) = true)
    (hunit : ∀ t, OnlyWrites W t (unit t)) (delta : Nat) (s : State) : OnlyWrites W s (clockPhase x delta unit s) := by
  have hadvance := advanceSig_onlyWrites hphase delta s
  unfold clockPhase
  split
  · exact hadvance.trans (hunit _)
  · exact hadvance

end

/-- The peripheral phase writes what the table gives a STEP: P1 to P6 in order (R262). -/
theorem peripheralPhase_onlyWrites (delta : Nat) (s : State) :
    OnlyWrites (mayWrite · (.step delta)) s (peripheralPhase delta s) := by
  have hpace := pacePhase_onlyWrites (W := (mayWrite · (.step delta))) rfl delta s
  have hfallback := hpace.trans (fallbackIrq_onlyWrites rfl _)
  have hserial := hfallback.trans
    (clockPhase_onlyWrites (x := .baud) rfl (serialPhase_onlyWrites rfl rfl rfl rfl rfl) delta _)
  have hkeyboard := hserial.trans (clockPhase_onlyWrites (x := .lba4) rfl (emit_onlyWrites · .kbdClock) delta _)
  have hnvram := hkeyboard.trans
    (clockPhase_onlyWrites (x := .lba7) rfl (nvrClock_onlyWrites rfl rfl rfl rfl rfl) delta _)
  exact hnvram.trans (clockPhase_onlyWrites (x := .vsync) rfl (verticalPhase_onlyWrites rfl rfl) delta _)

/-! ## Every operation -/

/-- An operation that completes writes only elements it is a writer of: each by the rule of the shared operation it is. -/
theorem exec_onlyWrites {i : Instr} {s t : State} (h : exec i s = .next t) : OnlyWrites (mayWrite · i) s t := by
  cases i
  case irqAck =>
    obtain ⟨-, rfl⟩ := execIrqAck_next h
    exact acknowledgeIrq_onlyWrites rfl rfl s
  case vidLine start =>
    obtain ⟨r, rfl⟩ := execVidLine_next h
    exact answer_onlyWrites s r
  all_goals cases h
  case sigAdv x delta =>
    exact (advanceSig_onlyWrites (by simp [mayWrite]) delta s).trans (answer_onlyWrites _ _)
  case sigSetp x p => exact setPeriod_onlyWrites (by simp [mayWrite]) p s
  case nvrClk => exact nvrClock_onlyWrites rfl rfl rfl rfl rfl s
  case nvrStandby | nvrUnused | a2Nop | a2NopReserved => exact .refl s
  case nvrAcceptAddr din => exact nvrAcceptAddr_onlyWrites rfl din s
  case nvrErase => exact nvrErase_onlyWrites rfl s
  case nvrAcceptData din => exact nvrAcceptData_onlyWrites rfl din s
  case nvrWrite => exact nvrWrite_onlyWrites rfl rfl s
  case nvrRead => exact nvrRead_onlyWrites rfl s
  case nvrShiftOut => exact nvrShiftOut_onlyWrites rfl rfl s
  case in00 | serRdata => exact serReadData_onlyWrites rfl s
  case out00 v | serWdata v => exact serWriteData_onlyWrites rfl rfl v s
  case out01 v => exact serWriteControl_onlyWrites rfl rfl v s
  case serWmode v => exact serWriteMode_onlyWrites rfl v s
  case serWcmd v => exact serWriteCommand_onlyWrites rfl rfl v s
  case serClk => exact (serClock_onlyWrites rfl rfl rfl s).trans (answer_onlyWrites _ _)
  case serWcols w => exact serWriteCols_onlyWrites rfl w s
  case out02 v => exact writeBaud_onlyWrites rfl rfl v s
  case out42 v => exact setBrightness_onlyWrites rfl v s
  case out62 v => apply withNvr_onlyWrites <;> simp [mayWrite]
  case in42 | in82 | inOther => exact (emit_onlyWrites s _).trans (answer_onlyWrites _ _)
  case out82 | outOther => exact emit_onlyWrites s _
  case outA2 v => exact foldl_onlyWrites (a2Run_onlyWrites rfl) _ s
  case outC2 v => exact foldl_onlyWrites (c2Run_onlyWrites rfl rfl rfl) _ s
  case a2ScrollLo | a2ScrollHi | a2BlinkToggle | a2ReverseOn | a2ReverseOff | a2BaseUnderline | a2BaseReverse =>
    exact a2Run_onlyWrites rfl _ s
  case c2Cols80 | c2Cols132 => exact setColumns_onlyWrites rfl rfl _ s
  case c2Hz60 | c2Hz50 => exact setRefreshRate_onlyWrites rfl rfl _ s
  case step delta => exact peripheralPhase_onlyWrites delta s
  case irqRaise src => exact raiseIrq_onlyWrites rfl src s
  case irqFallback => exact fallbackIrq_onlyWrites rfl s
  case vidRefresh => exact refresh_onlyWrites rfl s
  case in01 | serRstat | vidDesc | vidChar | vidSetup => exact answer_onlyWrites s _

/-- Settles O43: `exec_onlyWrites`, the writers taken from the table. -/
theorem onlyWritersChangeElements : Obligations.OnlyWritersChangeElements :=
  fun e _ _ _ h hw => exec_onlyWrites h e hw

end Sys2Proof.Machine

/-! PROOFS, family 40_signal_generator: the half period of a divider changed under its running accumulator (R143). -/

namespace Sys2Proof.Machine

@[simp] theorem advanceSig_get_same (x : SigId) (delta : Nat) (s : State) :
    (advanceSig x delta s).sig.get x = ((s.sig.get x).advance delta).signal := by
  simp [advanceSig]

@[simp] theorem setPeriod_get_same (x : SigId) (p : Nat) (s : State) :
    (setPeriod x p s).sig.get x = (s.sig.get x).changePeriod p := by
  simp [setPeriod]

/-- An accumulator that is already at the half period flips at the next advance, whatever the delta (R141, D1). -/
theorem Signal.advance_flips_of_periodHalf_le {g : Signal} (h : g.periodHalf ≤ g.ticks) (d : Nat) :
    (g.advance d).signal.value = !g.value := by
  obtain ⟨-, -, hvalue, -, htoggled⟩ := g.advance_spec d
  have ht : (g.advance d).toggled = true := htoggled.2 (Nat.le_add_right_of_le h)
  rw [hvalue, ht, Bool.xor_true]

/-- Settles O2: the new half period meets the kept accumulator, so `Signal.advance_flips_of_periodHalf_le` applies; that
it does so at equality with delta 0 is the spec's D1 (log 33). -/
theorem sigSetpKeepsAccumulator : Obligations.SigSetpKeepsAccumulator := by
  intro x p s
  refine ⟨rfl, fun hle d t ht => ?_⟩
  cases ht
  refine ⟨_, rfl, ?_⟩
  have hflip : (((s.sig.get x).changePeriod p).advance d).signal.value = !(s.sig.get x).value :=
    Signal.advance_flips_of_periodHalf_le hle d
  simpa using hflip

end Sys2Proof.Machine

/-! PROOFS, family 41_nvram: the NVRAM commands one by one, and the address register loaded bit by bit (R163 to R165,
R169 to R171). -/

namespace Sys2Proof.Machine

/-! ## Shifting a sequence of bits in -/

/-- After a sequence of bits, the register holds them from bit 0 up, the last one lowest, and above them what it held
before, moved up (R164, R166). -/
theorem foldl_shiftIn_bit {w : Nat} (bits : List Bool) (r : BitVec w) {i : Nat} (hi : i < w) :
    (bits.foldl shiftIn r).getLsbD i = bits.reverse[i]?.getD (r.getLsbD (i - bits.length)) := by
  induction bits using List.reverseRecOn generalizing i with
  | nil => simp
  | append_singleton bits b ih =>
    rw [List.foldl_append, List.foldl_cons, List.foldl_nil, shiftIn_bit _ _ hi]
    cases i with
    | zero => simp
    | succ i => simp [ih (Nat.lt_of_succ_lt hi)]

/-- The bits of an address, last one first, are its bits from bit 0 up. -/
theorem addressBits_reverse_get (a : BitVec 20) {i : Nat} (hi : i < 20) :
    (addressBits a).reverse[i]? = some (a.getLsbD i) := by
  have hplace : 19 - (19 - i) = i := by omega
  simp [addressBits, hi, hplace]

/-- The twenty bits of an address push out whatever the register held. -/
theorem foldl_shiftIn_addressBits (a r : BitVec 20) : (addressBits a).foldl shiftIn r = a := by
  apply BitVec.eq_of_getLsbD_eq
  intro i hi
  rw [foldl_shiftIn_bit _ _ hi, addressBits_reverse_get a hi, Option.getD_some]

/-! ## The commands -/

/-- A run of ACCEPT_ADDR shifts its bits into the address register, in order, and does nothing else (R164). -/
theorem execAll_nvrAcceptAddr (bits : List Bool) (s : State) :
    execAll (bits.map .nvrAcceptAddr) s =
      .next (s.withNvr { s.nvr with addressReg := bits.foldl shiftIn s.nvr.addressReg }) := by
  induction bits generalizing s with
  | nil => rfl
  | cons b bits ih => exact ih (nvrAcceptAddr b s)

/-- Settles O7: one clock by `shiftIn_eq`, twenty by `execAll_nvrAcceptAddr` and `foldl_shiftIn_addressBits`. -/
theorem nvrAddressShiftsAndLoadsInTwentyClocks : Obligations.NvrAddressShiftsAndLoadsInTwentyClocks := by
  intro a din s
  constructor
  · rw [← shiftIn_eq]
    rfl
  · rw [execAll_nvrAcceptAddr, foldl_shiftIn_addressBits]
    rfl

/-- Settles O6: both commands answer the state they are given. -/
theorem nvrStandbyAndUnusedDoNothing : Obligations.NvrStandbyAndUnusedDoNothing := fun _ => ⟨rfl, rfl⟩

/-- A shift with a zero entering is doubling, modulo the width (R170, D11). -/
theorem shiftLeft_one_eq {w : Nat} (r : BitVec w) : r <<< 1 = BitVec.ofNat w (2 * r.toNat) := by
  simpa [shiftIn] using shiftIn_eq r false

/-- The bit SHIFT_OUT presents is set exactly in the upper half of the cell values (R170). -/
theorem cellWord_bit_13_eq (d : CellWord) : d.getLsbD 13 = decide (d.toNat ≥ 8192) := d.msb_eq_decide

/-- Settles O11: ERASE and READ are their definitions; SHIFT_OUT's line and register in numbers are `cellWord_bit_13_eq`
and `shiftLeft_one_eq`. -/
theorem nvrEraseReadShiftOut : Obligations.NvrEraseReadShiftOut := by
  intro s
  refine ⟨rfl, rfl, ?_⟩
  rw [← cellWord_bit_13_eq, ← shiftLeft_one_eq]
  rfl

end Sys2Proof.Machine

/-! PROOFS, family 42_serial_controller: the two phases of the control port, and the command that opens the channel
(R191, R192, R194, R205). -/

namespace Sys2Proof.Machine

@[simp] theorem serWriteMode_ser (v : Byte) (s : State) :
    (serWriteMode v s).ser = { s.ser with mode := v, modeSelectMode := false } := rfl

@[simp] theorem serLatchCommand_ser (v : Byte) (s : State) :
    (serLatchCommand v s).ser =
      { s.ser with command := v, modeSelectMode := v.getLsbD 6 || s.ser.modeSelectMode } := rfl

/-- A host that can open the pty gives the channel its handle (R194, R204). -/
theorem openChannel_of_ptyOpen {s : State} {h : Nat} (hopen : s.inputs.ptyOpen = some h) :
    openChannel s = (s.emit (.ptyOpen 24 80)).withSer { s.ser with channel := .opened h } := by
  simp [openChannel, hopen]

/-- On a closed channel, a command with transmit and receive enable latches and then opens (R192). -/
theorem serWriteCommand_of_enables {s : State} {w : Byte} (hclosed : s.ser.channel = .closed)
    (htransmit : w.getLsbD 0 = true) (hreceive : w.getLsbD 2 = true) :
    serWriteCommand w s = openChannel (serLatchCommand w s) := by
  simp [serWriteCommand, hclosed, htransmit, hreceive]

/-- A write to port 0x01 in the mode-select phase is a mode write (R234). -/
theorem exec_out01_of_modeSelect {s : State} (hphase : s.ser.modeSelectMode = true) (v : Byte) :
    exec (.out01 v) s = .next (serWriteMode v s) :=
  congrArg Host.Outcome.next (if_pos hphase)

/-- A write to port 0x01 in the normal phase is a command write (R234). -/
theorem exec_out01_of_normal {s : State} (hphase : s.ser.modeSelectMode = false) (v : Byte) :
    exec (.out01 v) s = .next (serWriteCommand v s) :=
  congrArg Host.Outcome.next (if_neg (Bool.eq_false_iff.1 hphase))

/-- Settles O23: the first write is a mode write, which makes no call and ends the phase; the second is then a command,
on a channel still closed. -/
theorem serFirstWriteIsModeSecondSpawns : Obligations.SerFirstWriteIsModeSecondSpawns := by
  intro v w h s hphase hclosed hopen htransmit hreceive
  have hmode := exec_out01_of_modeSelect hphase v
  have hcommand := exec_out01_of_normal (s := serWriteMode v s) rfl w
  have hspawn := openChannel_of_ptyOpen (s := serLatchCommand w (serWriteMode v s)) (by simpa using hopen)
  rw [serWriteCommand_of_enables (by simpa using hclosed) htransmit hreceive, hspawn] at hcommand
  exact ⟨_, _, hmode, rfl, hclosed, rfl, hcommand, rfl, rfl⟩

/-- Settles O17: `serWriteMode` is the stored byte and the phase, whatever the byte. -/
theorem serModeByteIsStoredOnly : Obligations.SerModeByteIsStoredOnly := fun _ _ => rfl

end Sys2Proof.Machine

/-! PROOFS, family 43_io_dispatch: the ports, the display operations of port 0xA2 (R231 to R256), and what one step of
the machine does with the oldest queued event (R261; 20_memory.md R79, R83). -/

namespace Sys2Proof.Machine

/-! ## Serial ports -/

@[simp] theorem openChannel_modeSelectMode (s : State) :
    (openChannel s).ser.modeSelectMode = s.ser.modeSelectMode := by
  unfold openChannel
  split <;> rfl

@[simp] theorem closeChannel_modeSelectMode (s : State) :
    (closeChannel s).ser.modeSelectMode = s.ser.modeSelectMode := by
  unfold closeChannel
  split <;> rfl

/-- A command write enters the mode-select phase on RESET and never leaves it, whatever the channel does (R192). -/
@[simp] theorem serWriteCommand_modeSelectMode (v : Byte) (s : State) :
    (serWriteCommand v s).ser.modeSelectMode = (v.getLsbD 6 || s.ser.modeSelectMode) := by
  unfold serWriteCommand
  split <;> split <;> simp

/-- Settles O24: the phase before the control write chooses its case, and `serWriteCommand_modeSelectMode` is the phase
that the write after a RESET command finds. -/
theorem serialPortsSelectSerialOperations : Obligations.SerialPortsSelectSerialOperations := by
  intro v s
  refine ⟨⟨_, rfl, rfl⟩, ⟨_, rfl, rfl⟩, ⟨_, rfl, rfl⟩, ?_⟩
  cases hphase : s.ser.modeSelectMode with
  | true => exact ⟨_, exec_out01_of_modeSelect hphase v, fun _ => rfl, nofun, nofun⟩
  | false =>
    refine ⟨_, exec_out01_of_normal hphase v, nofun, fun _ => rfl, fun _ hreset w => ?_⟩
    exact exec_out01_of_modeSelect (by simp [hreset]) w

/-! ## Baud register -/

/-- The low nibble of a baud byte as a number (R113). -/
theorem baudIndex_val (v : Byte) : (baudIndex v).val = v.toNat % 16 := by
  simp [baudIndex]

/-- Settles O25: `baudIndex_val` names the divisor; the rest is the definition of the write, and arithmetic. -/
theorem baudWriteReprogramsBySource : Obligations.BaudWriteReprogramsBySource := by
  intro v s i hi
  obtain rfl : i = baudIndex v := Fin.ext (hi.trans (baudIndex_val v).symm)
  refine ⟨rfl, fun hscale => ?_⟩
  rw [hscale]
  omega

/-! ## Brightness, latch, keyboard and unlisted ports -/

/-- The operation of a command runs that command of the chip, with the data bit where the command takes one (R161). -/
theorem exec_commandInstr (cmd : NvrCommand) (din : Bool) (s : State) :
    exec (commandInstr cmd din) s = .next (nvrRun cmd din s) := by
  cases cmd <;> rfl

/-- Settles O27: the writes are their definitions; the clock after a latch write runs the latched command by
`exec_commandInstr`. -/
theorem portsThatStoreOrForward : Obligations.PortsThatStoreOrForward := by
  intro v s
  refine ⟨rfl, rfl, fun t ht => ?_, rfl, rfl⟩
  cases ht
  rw [exec_commandInstr]
  rfl

/-- Settles O28: both accesses are their definitions. -/
theorem unlistedPortsOnlyLog : Obligations.UnlistedPortsOnlyLog := fun _ _ _ => ⟨rfl, rfl⟩

/-! ## Scroll latch -/

/-- Bits 3:2 of a number, in place. -/
theorem and_twelve_eq (n : Nat) : n &&& 0xC = n / 4 % 4 * 4 := by
  have hhigh : (n &&& 0xC) / 2 ^ 2 = n / 2 ^ 2 % 2 ^ 2 := by
    rw [Nat.and_div_two_pow, ← Nat.and_two_pow_sub_one_eq_mod]
  have hlow : (n &&& 0xC) % 2 ^ 2 = 0 := by
    rw [Nat.and_mod_two_pow]
    exact Nat.and_zero _
  omega

/-- Two halves that share no bit are put together by adding them. -/
theorem four_mul_or_eq_add (high : Nat) {low : Nat} (h : low < 4) : high * 4 ||| low = high * 4 + low := by
  rw [Nat.mul_comm]
  exact (Nat.two_pow_add_eq_or_of_lt (i := 2) h high).symm

/-- The latch value of R242: the high half kept, the low half replaced. -/
theorem scroll_low_value (n : Nat) (k : BitVec 2) : (n &&& 0xC) ||| k.toNat = n / 4 % 4 * 4 + k.toNat := by
  rw [and_twelve_eq, four_mul_or_eq_add _ k.isLt]

/-- The latch value of R243: the low half kept, the high half replaced. -/
theorem scroll_high_value (n : Nat) (k : BitVec 2) : (n &&& 0x3) ||| (k.toNat <<< 2) = k.toNat * 4 + n % 4 := by
  rw [Nat.or_comm, Nat.shiftLeft_eq, Nat.and_two_pow_sub_one_eq_mod n 2,
    four_mul_or_eq_add _ (Nat.mod_lt n (by decide))]

/-- Settles O31: the scroll halves in numbers are `scroll_low_value` and `scroll_high_value`; the other operations are
their definitions. -/
theorem a2OperationsWriteDisplay : Obligations.A2OperationsWriteDisplay := by
  intro k s
  refine ⟨?_, ?_, rfl, rfl, rfl, rfl, rfl, rfl, rfl⟩
  · rw [← scroll_low_value]
    rfl
  · rw [← scroll_high_value]
    rfl

/-! ## The step: which events wait -/

/-- A request for a refresh is one that decodes to it (R282). -/
theorem isRefresh_op_iff {r : Request} : isRefresh (.op r) = true ↔ decode r = .ok .vidRefresh := by
  cases hd : decode r <;> simp [isRefresh, hd]

/-- With an empty queue nothing happens (R351). -/
theorem step_of_inbox_nil {s : State} (hq : s.inbox = []) : step s = .next s := by
  simp [step, runNext, hq]

/-- The oldest event waits: it moves behind the others that do (log 29, 35). -/
theorem step_of_mustWait {s : State} {e : Event} {rest : List Event} (hq : s.inbox = e :: rest)
    (hw : mustWait e.action s = true) : step s = .next (holdEvent e (s.withInbox rest)) := by
  simp [step, runNext, hq, hw]

/-- The oldest event is carried out, with its answers admitted. -/
theorem step_of_not_mustWait {s : State} {e : Event} {rest : List Event} (hq : s.inbox = e :: rest)
    (hw : mustWait e.action s = false) : step s = runAction e.action (admitEvent e (s.withInbox rest)) := by
  simp [step, runNext, hq, hw]

/-- An operation that is no refresh, or a refresh in its place, does not wait (R79, R282). -/
theorem mustWait_op_eq_false {r : Request} {i : Instr} {s : State} (hd : decode r = .ok i)
    (h : i = .vidRefresh → s.insideStep = false ∧ 0 < s.iof.refreshPending) : mustWait (.op r) s = false := by
  rw [Bool.eq_false_iff, Ne, mustWait_spec, isRefresh_op_iff, hd]
  rintro (⟨hi, hwhen⟩ | ⟨⟨_, _, hflags⟩, -⟩)
  · obtain ⟨hinside, hpending⟩ := h (Except.ok.inj hi)
    rcases hwhen with hin | hzero
    · exact absurd hin (by simp [hinside])
    · omega
  · cases hflags

/-! ## The step: the event admitted and carried out -/

/-- The answers of an event, free ones if it gives none, and the count of those drawn (log 6, 28). -/
theorem admitAnswers_eq (answers : Option HostInputs) (s : State) :
    admitAnswers answers s = { s with
      inputs := answers.getD (Config.freeInputs (s.draws + 1))
      draws := s.draws + (if answers = none then 1 else 0) } := by
  cases answers <;> rfl

/-- What the core or a clocked unit does lies inside a step from then on (log 35). -/
theorem admitEvent_of_beginsStep {e : Event} (h : beginsStep e.action = true) (s : State) :
    admitEvent e s = (admitAnswers e.answers s).withInsideStep true := by
  simp [admitEvent, h]

/-- What the host does, and a STEP, begins no step. -/
theorem admitEvent_of_not_beginsStep {e : Event} (h : beginsStep e.action = false) (s : State) :
    admitEvent e s = admitAnswers e.answers s := by
  unfold admitEvent
  rw [h, Bool.or_false]
  cases e.answers <;> rfl

/-- An operation other than STEP is followed by nothing of the machine's own. -/
theorem runOperation_of_ne_step {i : Instr} (h : ∀ d, i ≠ .step d) (s : State) : runOperation i s = exec i s := by
  have hafter (t : State) : afterOperation i t = t := by
    cases i
    case step d => exact absurd rfl (h d)
    all_goals rfl
  unfold runOperation
  cases exec i s <;> simp [hafter]

/-- A request that is an operation and does not wait runs that operation, and what the machine adds to it. -/
theorem step_op_ok {s : State} {e : Event} {rest : List Event} {r : Request} {i : Instr} (hq : s.inbox = e :: rest)
    (ha : e.action = .op r) (hd : decode r = .ok i)
    (h : i = .vidRefresh → s.insideStep = false ∧ 0 < s.iof.refreshPending) :
    step s = runOperation i (admitEvent e (s.withInbox rest)) := by
  have hw : mustWait e.action s = false := by
    rw [ha]
    exact mustWait_op_eq_false hd h
  rw [step_of_not_mustWait hq hw, ha]
  simp [runAction, hd]

/-- A request that is no operation is refused (log 14). -/
theorem step_op_error {s : State} {e : Event} {rest : List Event} {r : Request} {why : DecodeError}
    (hq : s.inbox = e :: rest) (ha : e.action = .op r) (hd : decode r = .error why) :
    step s = .refused (.noOperation why) := by
  have hw : mustWait e.action s = false := by simp [ha, mustWait, isRefresh, hd]
  rw [step_of_not_mustWait hq hw, ha]
  simp [runAction, hd]

/-- An operation of the core or of a clocked unit begins a step, if none is under way (log 35). -/
theorem beginsStep_op_of_not_isVideo {r : Request} {i : Instr} (hd : decode r = .ok i) (hvideo : isVideo i = false)
    (hstep : ∀ d, i ≠ .step d) : beginsStep (.op r) = true := by
  cases i
  case step d => exact absurd rfl (hstep d)
  all_goals simp [beginsStep, hd, hvideo]

/-- The video decoder's operations are the host's and begin no step (R79, R282). -/
theorem beginsStep_op_of_isVideo {r : Request} {i : Instr} (hd : decode r = .ok i) (hvideo : isVideo i = true) :
    beginsStep (.op r) = false := by
  cases i
  case step d => cases hvideo
  all_goals simp [beginsStep, hd, hvideo]

/-- A STEP begins no step: it ends one (R261). -/
theorem beginsStep_op_step {r : Request} {d : Nat} (hd : decode r = .ok (.step d)) : beginsStep (.op r) = false := by
  simp [beginsStep, hd]

theorem ne_step_of_isVideo {i : Instr} (hvideo : isVideo i = true) (d : Nat) : i ≠ .step d := by
  rintro rfl
  cases hvideo

/-! ## The step: what each kind of event does -/

section
variable {s : State} {e : Event} {rest : List Event} {r : Request}

/-- An operation of the core or of a clocked unit runs inside a step. -/
theorem step_unit_operation {i : Instr} (hq : s.inbox = e :: rest) (ha : e.action = .op r) (hd : decode r = .ok i)
    (hvideo : isVideo i = false) (hstep : ∀ d, i ≠ .step d) :
    step s = exec i ((admitAnswers e.answers (s.withInbox rest)).withInsideStep true) := by
  have hbegins : beginsStep e.action = true := by
    rw [ha]
    exact beginsStep_op_of_not_isVideo hd hvideo hstep
  have hno_refresh : i ≠ .vidRefresh := by
    rintro rfl
    cases hvideo
  rw [step_op_ok hq ha hd fun hi => absurd hi hno_refresh, runOperation_of_ne_step hstep,
    admitEvent_of_beginsStep hbegins]

/-- An operation of the video decoder, a refresh in its place only, runs and begins no step. -/
theorem step_video_operation {i : Instr} (hq : s.inbox = e :: rest) (ha : e.action = .op r) (hd : decode r = .ok i)
    (hvideo : isVideo i = true) (h : i = .vidRefresh → s.insideStep = false ∧ 0 < s.iof.refreshPending) :
    step s = exec i (admitAnswers e.answers (s.withInbox rest)) := by
  have hbegins : beginsStep e.action = false := by
    rw [ha]
    exact beginsStep_op_of_isVideo hd hvideo
  rw [step_op_ok hq ha hd h, runOperation_of_ne_step (ne_step_of_isVideo hvideo),
    admitEvent_of_not_beginsStep hbegins]

/-- After a STEP the step is over, and what waited is at the head of the queue (R79, R261; log 32, 35). -/
theorem step_step_operation {d : Nat} {t : State} (hq : s.inbox = e :: rest) (ha : e.action = .op r)
    (hd : decode r = .ok (.step d)) (ht : exec (.step d) (admitAnswers e.answers (s.withInbox rest)) = .next t) :
    step s = .next { t with
      iof := { t.iof with servicedThisStep := false }
      insideStep := false
      inbox := s.held ++ rest
      held := [] } := by
  have hbegins : beginsStep e.action = false := by
    rw [ha]
    exact beginsStep_op_step hd
  have hend : step s = .next (endStep t) := by
    rw [step_op_ok hq ha hd nofun, admitEvent_of_not_beginsStep hbegins]
    unfold runOperation
    rw [ht]
    rfl
  obtain ⟨-, -, -, -, hinbox, -, hheld⟩ := exec_leaves ht
  have hqueue : t.held ++ t.inbox = s.held ++ rest := by simp [hinbox, hheld]
  rw [hend, ← hqueue]
  rfl

/-- A store of the core is carried out inside a step, in the ROM region too (R83; log 9). -/
theorem step_coreStore {a : Addr} {b : Byte} (hq : s.inbox = e :: rest) (ha : e.action = .coreStore a b) :
    step s = .next (coreStore a b ((admitAnswers e.answers (s.withInbox rest)).withInsideStep true)) := by
  have hw : mustWait e.action s = false := by rw [ha]; rfl
  have hbegins : beginsStep e.action = true := by rw [ha]; rfl
  rw [step_of_not_mustWait hq hw, admitEvent_of_beginsStep hbegins, ha]
  rfl

/-- The host's flags are set between steps (R358; log 35). -/
theorem step_hostFlags {running controlMode : Bool} (hq : s.inbox = e :: rest)
    (ha : e.action = .hostFlags running controlMode) (hinside : s.insideStep = false) :
    step s = .next ((admitAnswers e.answers (s.withInbox rest)).withHost
      { s.host with running := running, controlMode := controlMode }) := by
  have hw : mustWait e.action s = false := by rw [ha]; exact hinside
  have hbegins : beginsStep e.action = false := by rw [ha]; rfl
  rw [step_of_not_mustWait hq hw, admitEvent_of_not_beginsStep hbegins, ha]
  simp [runAction]

end

/-! ## Memory after a store of the core -/

theorem memRead_coreStore_same {s : State} (hm : Memory.wf s.mem) (a : Addr) (b : Byte) :
    memRead (coreStore a b s) a = b :=
  Memory.read_write_same hm a.toNat b

theorem memRead_coreStore_other (s : State) {a c : Addr} (b : Byte) (h : c ≠ a) :
    memRead (coreStore a b s) c = memRead s c :=
  Memory.read_write_other s.mem b fun heq => h (BitVec.eq_of_toNat_eq heq).symm

/-- Settles O56: the event waits by `mustWait_spec`, or is carried out by the lemma of its kind, on the state with its
answers admitted. -/
theorem stepRunsDecodedInstruction : Obligations.StepRunsDecodedInstruction := by
  intro s
  refine ⟨step_of_inbox_nil, fun e rest hq => ⟨fun hwaits => ?waits, admitAnswers e.answers (s.withInbox rest),
    admitAnswers_eq _ _, fun _ _ => step_unit_operation hq, fun _ _ => step_video_operation hq,
    fun _ _ _ => step_step_operation hq, fun _ _ => step_op_error hq, fun a b ha => ?store,
    fun running controlMode ha hinside => ?flags⟩⟩
  case waits =>
    refine step_of_mustWait hq ((mustWait_spec _ _).2 (hwaits.imp_left ?_))
    rintro ⟨⟨r, ha, hd⟩, hwhen⟩
    rw [ha]
    exact ⟨isRefresh_op_iff.2 hd, hwhen⟩
  case store =>
    refine ⟨_, step_coreStore hq ha, ?_, fun hm => memRead_coreStore_same (by simpa using hm) a b, fun c hc => ?_⟩
    · simp [coreStore, State.withMem, State.withInsideStep]
    · rw [memRead_coreStore_other _ b hc]
      exact memRead_congr (by simp) c
  case flags =>
    rw [step_hostFlags hq ha hinside]
    simp [State.withHost]

end Sys2Proof.Machine

/-! PROOFS, family 44_video_decoder: the refresh and the reasons for which its walk ends (R281 to R287). -/

namespace Sys2Proof.Machine

/-! ## The walk -/

section
variable {s : State} {room index : Nat} {start : Addr} {attr : LineAttr} {scroll : Bool} {overlay : Overlay}
  {k : Nat} {l : RenderedLine} {term : Addr}

/-- A scan has one terminator. -/
theorem vidLine_term_unique {a : Addr} {cells cells' : List GlyphCell} {term' : Addr}
    (h : vidLine s a = some (cells, term)) (h' : vidLine s a = some (cells', term')) : term = term' := by
  rw [h] at h'
  exact congrArg Prod.snd (Option.some.inj h')

/-- A line whose descriptor points back to the line's own start is the last of the walk (R286). -/
theorem walkFrom_length_of_selfLoop (hl : (walkFrom s room index start attr scroll overlay).1[k]? = some l)
    (hline : vidLine s l.start = some (l.cells, term)) (hloop : (vidDesc s term).next = l.start) :
    (walkFrom s room index start attr scroll overlay).1.length = k + 1 := by
  fun_induction walkFrom s room index start attr scroll overlay generalizing k
  case case1 | case2 => simp at hl
  case case3 =>
    obtain ⟨rfl, -⟩ : k = 0 ∧ _ := by simpa [List.getElem?_singleton] using hl
    rfl
  case case4 term' hfirst _ line _ hnext rest ih =>
    cases k with
    | zero =>
      obtain rfl : line = l := by simpa using hl
      obtain rfl : term' = term := vidLine_term_unique hfirst hline
      exact absurd hloop hnext
    | succ k => simp [rest, ih (by simpa using hl)]

/-- A walk renders nothing only if it has no room, or its first line has no terminator (R287; D31, log 27). -/
theorem walkFrom_lines_eq_nil (h : (walkFrom s room index start attr scroll overlay).1 = []) :
    room = 0 ∨ vidLine s start = none := by
  revert h
  fun_cases walkFrom s room index start attr scroll overlay
  case case1 => exact fun _ => .inl rfl
  case case2 hnone => exact fun _ => .inr hnone
  case case3 | case4 => exact nofun

/-- What ends a walk after its last line: a self-loop, no room left, or a next line with no terminator (R287). -/
theorem walkFrom_last_line (hlast : (walkFrom s room index start attr scroll overlay).1.length = k + 1)
    (hl : (walkFrom s room index start attr scroll overlay).1[k]? = some l)
    (hline : vidLine s l.start = some (l.cells, term)) :
    (vidDesc s term).next = l.start ∨ k + 1 = room ∨ vidLine s (vidDesc s term).next = none := by
  fun_induction walkFrom s room index start attr scroll overlay generalizing k
  case case1 | case2 => simp at hl
  case case3 term' _ _ hfirst line =>
    obtain ⟨-, rfl⟩ : k = 0 ∧ line = l := by simpa [List.getElem?_singleton] using hl
    obtain rfl : term' = term := vidLine_term_unique hfirst hline
    exact .inl rfl
  case case4 term' hfirst _ line _ hnext rest ih =>
    have hrest : rest.1.length = k := by simpa using hlast
    cases k with
    | zero =>
      obtain rfl : line = l := by simpa using hl
      obtain rfl : term' = term := vidLine_term_unique hfirst hline
      rcases walkFrom_lines_eq_nil (List.length_eq_zero_iff.1 hrest) with hroom | hnone
      · exact .inr (.inl (by omega))
      · exact .inr (.inr hnone)
    | succ k => simpa using ih hrest (by simpa using hl)

end

/-- Settles O51: a self-loop is last by `walkFrom_length_of_selfLoop`; the frame's other ends are those of an empty walk
and of a walk's last line. -/
theorem walkStopsAtSelfLoopOrBound : Obligations.WalkStopsAtSelfLoopOrBound := fun _ =>
  ⟨fun _ _ _ => walkFrom_length_of_selfLoop, walkFrom_lines_eq_nil, fun _ _ _ => walkFrom_last_line⟩

/-! ## The refresh -/

/-- Settles O49: `refresh` is that record of the state, with `frameOf` for the frame. -/
theorem vidRefreshReturnsFrame : Obligations.VidRefreshReturnsFrame := fun _ => rfl

end Sys2Proof.Machine

/-! PROOFS, family 60_exceptions: which operations complete (R330), the life of an interrupt request (R337, R345), control
mode (R347), and the invariant of a step. -/

namespace Sys2Proof.Machine

/-! ## The operations that complete -/

/-- An acknowledge of nothing is refused (R341, U7). -/
theorem execIrqAck_of_not_pending {s : State} (h : s.iof.intPending = false) :
    execIrqAck s = .refused .acknowledgeNotPending := by
  simp [execIrqAck, h]

/-- An acknowledge of a pending request completes (R341). -/
theorem execIrqAck_of_pending {s : State} (h : s.iof.intPending = true) : execIrqAck s = .next (acknowledgeIrq s) := by
  simp [execIrqAck, h]

/-- A line scan completes, whether or not it finds a terminator (R284). -/
theorem execVidLine_completes (start : Addr) (s : State) : ∃ t, execVidLine start s = .next t := by
  unfold execVidLine
  split <;> exact ⟨_, rfl⟩

/-- Settles O36: the acknowledge by the pending flag; every other operation answers a next state by its definition. -/
theorem onlyEmptyAcknowledgeIsRefused : Obligations.OnlyEmptyAcknowledgeIsRefused := by
  intro i s
  cases i
  case irqAck =>
    cases hpending : s.iof.intPending
    · exact .inl ⟨rfl, rfl, execIrqAck_of_not_pending hpending⟩
    · exact .inr ⟨_, execIrqAck_of_pending hpending⟩
  case vidLine start => exact .inr (execVidLine_completes start s)
  all_goals exact .inr ⟨_, rfl⟩

/-! ## The writers of an element, by name -/

/-- The writers of the pending flag and the vector (10_state.md section 8). -/
theorem mayWrite_iofInterrupt {i : Instr} (h : mayWrite .iofInterrupt i = true) :
    (∃ src, i = .irqRaise src) ∨ i = .irqAck ∨ i = .irqFallback ∨ ∃ d, i = .step d := by
  cases i
  case irqRaise src => exact .inl ⟨src, rfl⟩
  case irqAck => exact .inr (.inl rfl)
  case irqFallback => exact .inr (.inr (.inl rfl))
  case step d => exact .inr (.inr (.inr ⟨d, rfl⟩))
  all_goals cases h

/-- Only a STEP and a refresh write the tick counter. -/
theorem mayWrite_iofRefreshPending {i : Instr} (h : mayWrite .iofRefreshPending i = true) :
    (∃ d, i = .step d) ∨ i = .vidRefresh := by
  cases i
  case step d => exact .inl ⟨d, rfl⟩
  case vidRefresh => exact .inr rfl
  all_goals cases h

/-- Only the acknowledge writes the serviced flag (R51, R341). -/
theorem mayWrite_iofServiced {i : Instr} (h : mayWrite .iofServiced i = true) : i = .irqAck := by
  cases i
  case irqAck => rfl
  all_goals cases h

/-- Only a STEP writes control mode (R45, R347). -/
theorem mayWrite_hostControlMode {i : Instr} (h : mayWrite .hostControlMode i = true) : ∃ d, i = .step d := by
  cases i
  case step d => exact ⟨d, rfl⟩
  all_goals cases h

/-! ## What a request, a fallback and nothing else can do to the interrupt registers

A property of the interrupt registers that every request and every fallback keeps is kept by every operation but the
acknowledge: the other operations either do not write the registers or, like STEP, write them by requests and a
fallback. -/

/-- A property of the configuration, the pending flag and the vector that requests and the fallback keep. -/
structure KeptByInterrupts (P : State → Prop) : Prop where
  congr {s t : State} (hcfg : t.cfg = s.cfg) (hpending : t.iof.intPending = s.iof.intPending)
    (hvector : t.iof.intVector = s.iof.intVector) (hs : P s) : P t
  raise (src : IrqSource) {s : State} (hs : P s) : P (raiseIrq src s)
  fallback {s : State} (hs : P s) : P (fallbackIrq s)

namespace KeptByInterrupts

variable {P : State → Prop} {s t : State}

/-- An operation that leaves the fabric alone keeps the property. -/
theorem of_iof (hP : KeptByInterrupts P) (hcfg : t.cfg = s.cfg) (hiof : t.iof = s.iof) (hs : P s) : P t :=
  hP.congr hcfg (by rw [hiof]) (by rw [hiof]) hs

/-- A phase keeps the property if the unit it clocks does. -/
theorem clockPhase (hP : KeptByInterrupts P) {unit : State → State} (hunit : ∀ {u}, P u → P (unit u)) (x : SigId)
    (d : Nat) (hs : P s) : P (clockPhase x d unit s) := by
  have hadvanced : P (advanceSig x d s) := hP.of_iof (by simp) (by simp) hs
  unfold Machine.clockPhase
  split
  · exact hunit hadvanced
  · exact hadvanced

/-- A true serial clock raises a request (R265). -/
theorem serialEvent (hP : KeptByInterrupts P) (hs : P s) : P (serialEvent s) := by
  have hraised : P (raiseIrq .serial s) := hP.raise .serial hs
  unfold Machine.serialEvent
  split
  · exact hP.of_iof (by simp) (by simp) hraised
  · exact hraised

theorem serialPhase (hP : KeptByInterrupts P) (hs : P s) : P (serialPhase s) := by
  have hclocked : P (serClock s) := hP.of_iof (by simp) (by simp) hs
  unfold Machine.serialPhase
  split
  · exact hP.serialEvent hclocked
  · exact hclocked

/-- A vertical phase raises a request, and counts a tick besides (R268). -/
theorem verticalPhase (hP : KeptByInterrupts P) (hs : P s) : P (verticalPhase s) :=
  hP.congr (s := raiseIrq .vertical s) rfl rfl rfl (hP.raise .vertical hs)

/-- The phases of a STEP in order (R262): a fallback, then the requests of the serial and the vertical phase. -/
theorem peripheralPhase (hP : KeptByInterrupts P) (d : Nat) (hs : P s) : P (peripheralPhase d s) := by
  have hpaced : P (pacePhase d s) := hP.of_iof (by simp) (by simp) hs
  have hserial := hP.clockPhase hP.serialPhase .baud d (hP.fallback hpaced)
  have hkeyboard := hP.clockPhase (unit := keyboardPhase) (hP.of_iof (by simp) (by simp)) .lba4 d hserial
  have hnvram := hP.clockPhase (unit := nvrClock) (hP.of_iof (by simp) (by simp)) .lba7 d hkeyboard
  exact hP.clockPhase hP.verticalPhase .vsync d hnvram

/-- Every operation but the acknowledge keeps the property. -/
theorem exec (hP : KeptByInterrupts P) {i : Instr} (h : exec i s = .next t) (hack : i ≠ .irqAck) (hs : P s) : P t := by
  cases hwriter : mayWrite .iofInterrupt i
  case false =>
    obtain ⟨hpending, hvector⟩ := exec_onlyWrites h .iofInterrupt hwriter
    exact hP.congr (exec_leaves h).1 hpending hvector hs
  case true =>
    rcases mayWrite_iofInterrupt hwriter with ⟨src, rfl⟩ | rfl | rfl | ⟨d, rfl⟩
    · cases h
      exact hP.raise src hs
    · exact absurd rfl hack
    · cases h
      exact hP.fallback hs
    · cases h
      exact hP.peripheralPhase d hs

end KeptByInterrupts

/-! ## A request stays pending -/

/-- A request sets the pending flag, and a fallback writes the vector only (R336, R344). -/
theorem keptByInterrupts_pending : KeptByInterrupts fun s => s.iof.intPending = true where
  congr _ hpending _ hs := hpending.trans hs
  raise _ _ _ := rfl
  fallback {s} hs := by rcases fallbackIrq_iof s with h | h <;> simpa [h] using hs

/-- Settles O40: a raise sets the flag by its definition, and the flag is kept by requests and the fallback. -/
theorem onlyAcknowledgeClearsRequest : Obligations.OnlyAcknowledgeClearsRequest :=
  ⟨fun _ _ => ⟨_, rfl, rfl⟩, fun _ _ _ h hpending hack => keptByInterrupts_pending.exec h hack hpending⟩

/-! ## Control mode -/

@[simp] theorem pacePhase_controlMode (d : Nat) (s : State) :
    (pacePhase d s).host.controlMode = s.host.controlMode := by
  unfold pacePhase
  split <;> simp

theorem sigRises_congr {s t : State} (h : t.sig = s.sig) (x : SigId) (d : Nat) : sigRises x d t = sigRises x d s := by
  simp [sigRises, h]

/-- Of the phases of a STEP only pacing and the serial phase write the host's side. -/
theorem peripheralPhase_host (d : Nat) (s : State) :
    (peripheralPhase d s).host = (clockPhase .baud d serialPhase (fallbackIrq (pacePhase d s))).host := by
  unfold peripheralPhase
  rw [clockPhase_keeps State.host, clockPhase_keeps State.host, clockPhase_keeps State.host] <;> simp

/-- A STEP forces control mode exactly when the controller is clocked, its clock is true and the channel closed after it
(R265, R347). -/
theorem peripheralPhase_controlMode (d : Nat) (s : State) :
    (peripheralPhase d s).host.controlMode = true ↔ s.host.controlMode = true ∨
      (sigRises .baud d s = true ∧ serClockResult s = true ∧ (serClock s).ser.channel = .closed) := by
  obtain ⟨hser, hresult⟩ :=
    serClock_congr (s := s) (t := advanceSig .baud d (fallbackIrq (pacePhase d s))) (by simp) (by simp)
  have hrises : sigRises .baud d (fallbackIrq (pacePhase d s)) = sigRises .baud d s := sigRises_congr (by simp) _ _
  rw [peripheralPhase_host, clockPhase_view State.host _ _ _ _ (by simp), serialPhase_host, hser, hresult, hrises]
  by_cases hclocked : sigRises .baud d s = true
  · by_cases hclosed : serClockResult s = true ∧ (serClock s).ser.channel = .closed <;> simp [hclocked, hclosed]
  · simp [hclocked]

/-- Settles O41: the table of writers for every operation but STEP, `peripheralPhase_controlMode` for STEP. -/
theorem controlModeForcedOnlyBySerialPhase : Obligations.ControlModeForcedOnlyBySerialPhase := by
  intro i s t h
  refine ⟨exec_onlyWrites h .hostRunning rfl, ?_⟩
  cases hwriter : mayWrite .hostControlMode i
  case false =>
    have hkept : t.host.controlMode = s.host.controlMode := exec_onlyWrites h .hostControlMode hwriter
    rw [hkept]
    refine ⟨.inl, ?_⟩
    rintro (hmode | ⟨_, _, rfl, -⟩)
    · exact hmode
    · cases hwriter
  case true =>
    obtain ⟨d, rfl⟩ := mayWrite_hostControlMode hwriter
    cases h
    refine (peripheralPhase_controlMode d s).trans (or_congr_right ⟨?_, ?_⟩)
    · rintro ⟨hrises, hresult, hclosed⟩
      exact ⟨d, _, rfl, hrises, rfl, congrArg Result.flag hresult, hclosed⟩
    · rintro ⟨_, _, hd, hrises, hclock, hresult, hclosed⟩
      cases hd
      cases hclock
      exact ⟨hrises, Result.flag.inj hresult, hclosed⟩

/-! ## The invariant: its clauses about the fabric and the scroll latch -/

/-- The vector is at its fallback while nothing is pending (R345). -/
def IdleVectorIsFallback (s : State) : Prop := s.iof.intPending = false → s.iof.intVector = s.cfg.vecFallback

/-- The scroll latch is in its width (10_state.md R42). -/
def ScrollLatchInWidth (s : State) : Prop := s.disp.scrollLatch < 2 ^ s.cfg.scrollLatchBits

/-- Between steps nothing is serviced, and nothing waits but refreshes with no tick pending (logs 29, 32). -/
def NothingLeftBetweenSteps (s : State) : Prop :=
  s.insideStep = false → s.iof.servicedThisStep = false ∧
    ∀ e ∈ s.held, isRefresh e.action = true ∧ s.iof.refreshPending = 0

/-- The invariant by the names of its clauses. -/
theorem inv_iff (s : State) :
    s.Inv ↔ Memory.wf s.mem ∧ IdleVectorIsFallback s ∧ s.cfg.WF ∧ ScrollLatchInWidth s ∧ NothingLeftBetweenSteps s ∧
      ∀ e ∈ s.held, hostAction e.action = true :=
  Iff.rfl

/-- A request leaves something pending, and the fallback sets the vector to its fallback (R336, R344). -/
theorem keptByInterrupts_idleVector : KeptByInterrupts IdleVectorIsFallback where
  congr hcfg hpending hvector hs := by
    unfold IdleVectorIsFallback
    rw [hcfg, hpending, hvector]
    exact hs
  raise _ _ _ := nofun
  fallback {s} hs := by rcases fallbackIrq_iof s with h | h <;> simp_all [IdleVectorIsFallback]

theorem exec_idleVector {i : Instr} {s t : State} (h : exec i s = .next t) (hs : IdleVectorIsFallback s) :
    IdleVectorIsFallback t := by
  by_cases hack : i = .irqAck
  · subst hack
    obtain ⟨-, rfl⟩ := execIrqAck_next h
    exact fun _ => rfl
  · exact keptByInterrupts_idleVector.exec h hack hs

theorem loadScroll_inWidth (v : Nat) (s : State) : ScrollLatchInWidth (loadScroll v s) :=
  Nat.mod_lt _ (Nat.two_pow_pos _)

theorem a2Run_scrollInWidth (op : A2Op) {s : State} (hs : ScrollLatchInWidth s) : ScrollLatchInWidth (a2Run op s) := by
  cases op
  case scrollLo | scrollHi => exact loadScroll_inWidth _ s
  all_goals exact hs

theorem a2Fold_scrollInWidth (ops : List A2Op) {s : State} (hs : ScrollLatchInWidth s) :
    ScrollLatchInWidth (ops.foldl (fun t op => a2Run op t) s) := by
  induction ops generalizing s with
  | nil => exact hs
  | cons op ops ih => exact ih (a2Run_scrollInWidth op hs)

/-- Only the operations of port 0xA2 write the latch, and they load it in its width (10_state.md section 8). -/
theorem exec_scrollInWidth {i : Instr} {s t : State} (h : exec i s = .next t) (hs : ScrollLatchInWidth s) :
    ScrollLatchInWidth t := by
  cases hwriter : mayWrite .dispA2 i
  case false =>
    obtain ⟨-, hlatch, -⟩ := exec_onlyWrites h .dispA2 hwriter
    unfold ScrollLatchInWidth
    rw [hlatch, (exec_leaves h).1]
    exact hs
  case true =>
    cases i
    case outA2 v =>
      cases h
      exact a2Fold_scrollInWidth _ hs
    case a2ScrollLo | a2ScrollHi | a2BlinkToggle | a2ReverseOn | a2ReverseOff | a2BaseUnderline | a2BaseReverse =>
      cases h
      exact a2Run_scrollInWidth _ hs
    all_goals cases hwriter

/-! ## The invariant: one rule per kind of event -/

/-- An operation that is neither a STEP nor an acknowledge between steps leaves nothing over: it adds no tick and
services nothing. -/
theorem exec_nothingLeft {i : Instr} {s t : State} (h : exec i s = .next t) (hstep : ∀ d, i ≠ .step d)
    (hack : i = .irqAck → s.insideStep = true) (hs : NothingLeftBetweenSteps s) : NothingLeftBetweenSteps t := by
  obtain ⟨-, -, -, -, -, hinside, hheld⟩ := exec_leaves h
  intro hbetween
  rw [hinside] at hbetween
  obtain ⟨hserviced, hwaiting⟩ := hs hbetween
  rw [hheld]
  constructor
  · cases hwriter : mayWrite .iofServiced i
    case false => exact (exec_onlyWrites h .iofServiced hwriter).trans hserviced
    case true => exact absurd (hack (mayWrite_iofServiced hwriter)) (by simp [hbetween])
  · intro e he
    obtain ⟨hrefresh, hticks⟩ := hwaiting e he
    refine ⟨hrefresh, ?_⟩
    cases hwriter : mayWrite .iofRefreshPending i
    case false => exact (exec_onlyWrites h .iofRefreshPending hwriter).trans hticks
    case true =>
      rcases mayWrite_iofRefreshPending hwriter with ⟨d, rfl⟩ | rfl
      · exact absurd rfl (hstep d)
      · cases h
        rfl

/-- The end of a step establishes the clauses about what is left over, and keeps the others (R261, R343). -/
theorem endStep_inv {s : State} (hmem : Memory.wf s.mem) (hidle : IdleVectorIsFallback s) (hwf : s.cfg.WF)
    (hscroll : ScrollLatchInWidth s) : (endStep s).Inv := by
  obtain ⟨hiof, -, hheld, -⟩ := endStep_spec s
  refine ⟨by simpa, ?_, by simpa, by simpa, fun _ => ?_, by simp [hheld]⟩
  · rw [hiof, (endStep_leaves s).1]
    exact hidle
  · simp [hiof, hheld]

theorem afterOperation_of_ne_step {i : Instr} (hstep : ∀ d, i ≠ .step d) (t : State) : afterOperation i t = t := by
  cases i
  case step d => exact absurd rfl (hstep d)
  all_goals rfl

/-- An operation, and the end of the step after a STEP, keep the invariant; an acknowledge does inside a step. -/
theorem afterOperation_inv {i : Instr} {s t : State} (h : exec i s = .next t)
    (hack : i = .irqAck → s.insideStep = true) (hs : s.Inv) : (afterOperation i t).Inv := by
  obtain ⟨hmem, hidle, hwf, hscroll, hleft, hhost⟩ := (inv_iff s).1 hs
  obtain ⟨hcfg, hsamemem, -, -, -, -, hheld⟩ := exec_leaves h
  rw [← hsamemem] at hmem
  rw [← hcfg] at hwf
  rw [← hheld] at hhost
  have hidle := exec_idleVector h hidle
  have hscroll := exec_scrollInWidth h hscroll
  by_cases hstep : ∃ d, i = .step d
  · obtain ⟨d, rfl⟩ := hstep
    exact endStep_inv hmem hidle hwf hscroll
  · have hother : ∀ d, i ≠ .step d := fun d hd => hstep ⟨d, hd⟩
    rw [afterOperation_of_ne_step hother]
    exact ⟨hmem, hidle, hwf, hscroll, exec_nothingLeft h hother hack hleft, hhost⟩

/-- A request of the host that waits between steps is a refresh with no tick pending (R79, R282; logs 29, 35). -/
theorem holdEvent_inv {e : Event} {s : State} (hwaits : mustWait e.action s = true) (hs : s.Inv) :
    (holdEvent e s).Inv := by
  obtain ⟨hmem, hidle, hwf, hscroll, hleft, hhost⟩ := hs
  refine ⟨hmem, hidle, hwf, hscroll, fun hbetween => ?_, ?_⟩
  · have hinside : s.insideStep = false := hbetween
    obtain ⟨hserviced, hwaiting⟩ := hleft hinside
    have hnew : isRefresh e.action = true ∧ s.iof.refreshPending = 0 := by
      simpa [hinside] using (mustWait_spec e.action s).1 hwaits
    exact ⟨hserviced, List.forall_mem_append.2 ⟨hwaiting, List.forall_mem_singleton.2 hnew⟩⟩
  · exact List.forall_mem_append.2 ⟨hhost, List.forall_mem_singleton.2 (hostAction_of_mustWait hwaits)⟩

/-- Admitting an event asks nothing new of the state: it can only begin a step. -/
theorem admitEvent_inv (e : Event) {s : State} (hs : s.Inv) : (admitEvent e s).Inv := by
  obtain ⟨hmem, hidle, hwf, hscroll, hleft, hhost⟩ := hs
  refine ⟨by simpa, by simpa, by simpa, by simpa, fun hbetween => ?_, by simpa⟩
  obtain ⟨hinside, -⟩ : s.insideStep = false ∧ beginsStep e.action = false := by simpa using hbetween
  simpa using hleft hinside

theorem coreStore_inv (a : Addr) (b : Byte) {s : State} (hs : s.Inv) : (coreStore a b s).Inv := by
  obtain ⟨hmem, hrest⟩ := hs
  exact ⟨coreStore_wf hmem a b, hrest⟩

/-- An acknowledge is the core's and lies inside a step (log 35). -/
theorem admitEvent_insideStep_of_irqAck {e : Event} {r : Request} (ha : e.action = .op r)
    (hd : decode r = .ok .irqAck) (s : State) : (admitEvent e s).insideStep = true := by
  have hbegins : beginsStep e.action = true := by
    rw [ha]
    exact beginsStep_op_of_not_isVideo hd rfl nofun
  simp [hbegins]

/-- Settles O57: the cases of a step, each by the rule of its kind of event. -/
theorem stepKeepsInvariant : Obligations.StepKeepsInvariant := by
  intro s t hs h
  rcases step_cases h with ⟨-, rfl⟩ | ⟨e, rest, -, ⟨hwaits, rfl⟩ | ⟨-, hevent⟩⟩
  · exact hs
  · exact holdEvent_inv (s := s.withInbox rest) hwaits hs
  have hadmitted : (admitEvent e (s.withInbox rest)).Inv := admitEvent_inv e (s := s.withInbox rest) hs
  rcases hevent with ⟨r, i, u, ha, hd, hx, rfl⟩ | ⟨a, b, -, rfl⟩ | ⟨running, controlMode, -, rfl⟩
  · refine afterOperation_inv hx ?_ hadmitted
    rintro rfl
    exact admitEvent_insideStep_of_irqAck ha hd _
  · exact coreStore_inv a b hadmitted
  · -- The invariant does not speak of the host's flags.
    exact hadmitted

end Sys2Proof.Machine

/-! PROOFS, family other: the NVRAM file (30_encoding.md R108, 70_reset_and_hazards.md R371). -/

namespace Sys2Proof.Machine

/-! ## One token -/

/-- The sixteen digits are read back, and none of them separates tokens (R108). -/
theorem hexDigit_spec {n : Nat} (h : n < 16) :
    hexValue (hexDigit n) = some n ∧ isSeparator (hexDigit n) = false := by
  revert n
  decide

/-- The four digits of a cell are digits. -/
theorem hexToken_digits (w : CellWord) :
    w.toNat / 4096 < 16 ∧ w.toNat / 256 % 16 < 16 ∧ w.toNat / 16 % 16 < 16 ∧ w.toNat % 16 < 16 := by
  have hw := w.isLt
  omega

theorem parseToken_hexToken (w : CellWord) : parseToken (hexToken w) = some w := by
  obtain ⟨ha, hb, hc, hd⟩ := hexToken_digits w
  have hvalue : w.toNat / 4096 * 4096 + w.toNat / 256 % 16 * 256 + w.toNat / 16 % 16 * 16 + w.toNat % 16 = w.toNat := by
    omega
  simp [parseToken, hexToken, hexDigit_spec ha, hexDigit_spec hb, hexDigit_spec hc, hexDigit_spec hd, hvalue]

theorem hexToken_not_separator {w : CellWord} {b : Byte} (h : b ∈ hexToken w) : isSeparator b = false := by
  obtain ⟨ha, hb, hc, hd⟩ := hexToken_digits w
  simp only [hexToken, List.mem_cons, List.not_mem_nil, or_false] at h
  rcases h with rfl | rfl | rfl | rfl
  · exact (hexDigit_spec ha).2
  · exact (hexDigit_spec hb).2
  · exact (hexDigit_spec hc).2
  · exact (hexDigit_spec hd).2

theorem separatorAfter_isSeparator (i : Nat) : isSeparator (separatorAfter i) = true := by
  unfold separatorAfter
  split <;> rfl

/-! ## The text of a table -/

/-- The text of the cells at the given places. -/
def renderCells (cells : Vector CellWord 100) (places : List (Fin 100)) : List Byte :=
  places.flatMap fun i => hexToken (cells.get i) ++ [separatorAfter i.val]

theorem renderNvrFile_eq (cells : Vector CellWord 100) :
    renderNvrFile cells = renderCells cells (List.finRange 100) := rfl

/-- Every cell takes five bytes. -/
theorem renderCells_length (cells : Vector CellWord 100) (places : List (Fin 100)) :
    (renderCells cells places).length = 5 * places.length := by
  induction places with
  | nil => rfl
  | cons i places ih =>
    simp only [renderCells, hexToken, List.flatMap_cons, List.length_append, List.length_cons,
      List.length_nil] at ih ⊢
    omega

/-- Bytes that are no separators join the token being read. -/
theorem splitTokens_append {token : List Byte} (h : ∀ b ∈ token, isSeparator b = false) (cur rest : List Byte) :
    splitTokens cur (token ++ rest) = splitTokens (cur ++ token) rest := by
  induction token generalizing cur with
  | nil => simp
  | cons b token ih =>
    obtain ⟨hb, htoken⟩ := List.forall_mem_cons.1 h
    simp [splitTokens, hb, ih htoken]

/-- A separator ends the token being read. -/
theorem splitTokens_separator {cur : List Byte} {b : Byte} (hcur : cur ≠ []) (hb : isSeparator b = true)
    (rest : List Byte) : splitTokens cur (b :: rest) = cur :: splitTokens [] rest := by
  simp [splitTokens, hb, hcur]

/-- The tokens of a rendered text are those of its cells, and then those of what follows it. -/
theorem splitTokens_renderCells (cells : Vector CellWord 100) (places : List (Fin 100)) (junk : List Byte) :
    splitTokens [] (renderCells cells places ++ junk) =
      (places.map cells.get).map hexToken ++ splitTokens [] junk := by
  induction places with
  | nil => rfl
  | cons i places ih =>
    have htext : renderCells cells (i :: places) ++ junk =
        hexToken (cells.get i) ++ (separatorAfter i.val :: (renderCells cells places ++ junk)) := by
      simp [renderCells]
    rw [htext, splitTokens_append (fun _ => hexToken_not_separator),
      splitTokens_separator (by simp [hexToken]) (separatorAfter_isSeparator _), ih]
    rfl

/-! ## The load -/

/-- As many cells as there are tokens of cells are read back, whatever tokens follow (D12). -/
theorem parseCells_hexTokens (ws : List CellWord) (more : List (List Byte)) :
    parseCells ws.length (ws.map hexToken ++ more) = some ws := by
  induction ws with
  | nil => rfl
  | cons w ws ih => simp [parseCells, parseToken_hexToken, ih]

/-- Settles O15: the text splits into the tokens of its hundred cells (`splitTokens_renderCells`), and these are read
back (`parseCells_hexTokens`). -/
theorem nvrFileRoundTrip : Obligations.NvrFileRoundTrip := by
  intro cells junk
  rw [renderNvrFile_eq]
  refine ⟨by simp [renderCells_length], ?_⟩
  have hcells : parseCells 100 (splitTokens [] (renderCells cells (List.finRange 100) ++ junk)) =
      some ((List.finRange 100).map cells.get) := by
    simpa [splitTokens_renderCells] using parseCells_hexTokens ((List.finRange 100).map cells.get) (splitTokens [] junk)
  unfold parseNvrFile
  rw [hcells]
  refine congrArg some (Vector.ext fun i hi => ?_)
  simp [Vector.get_eq_getElem]

/-- Fewer tokens than cells give no table (R371). -/
theorem parseCells_of_length_lt {n : Nat} {tokens : List (List Byte)} (h : tokens.length < n) :
    parseCells n tokens = none := by
  induction tokens generalizing n with
  | nil =>
    cases n with
    | zero => cases h
    | succ n => rfl
  | cons token tokens ih =>
    cases n with
    | zero => cases h
    | succ n => simp [parseCells, ih (Nat.lt_of_succ_lt_succ h)]

/-- A token among those of the cells that is no cell gives no table (R371). -/
theorem parseCells_of_malformed {n k : Nat} {tokens : List (List Byte)} {token : List Byte} (hk : k < n)
    (ht : tokens[k]? = some token) (hbad : parseToken token = none) : parseCells n tokens = none := by
  induction tokens generalizing n k with
  | nil => simp at ht
  | cons first tokens ih =>
    obtain ⟨n, rfl⟩ := Nat.exists_eq_add_one_of_ne_zero (Nat.ne_zero_of_lt hk)
    cases k with
    | zero =>
      obtain rfl : first = token := by simpa using ht
      simp [parseCells, hbad]
    | succ k => simp [parseCells, ih (Nat.lt_of_succ_lt_succ hk) (by simpa using ht)]

/-- A file whose tokens are no table leaves the whole default image (R371, R334). -/
theorem loadNvr_of_parseCells_none {text : List Byte} (h : parseCells 100 (splitTokens [] text) = none)
    (image : Vector CellWord 100) : loadNvr image (some text) = image := by
  simp [loadNvr, parseNvrFile, h]

/-- Settles O16: a short and a malformed file give no table by `parseCells_of_length_lt` and `parseCells_of_malformed`;
what counts as a token is the model's `splitTokens` (log 12). -/
theorem nvrLoadFallsBackWhole : Obligations.NvrLoadFallsBackWhole := fun image _ =>
  ⟨rfl, fun hshort => loadNvr_of_parseCells_none (parseCells_of_length_lt hshort) image,
    fun _ _ hk ht hbad => loadNvr_of_parseCells_none (parseCells_of_malformed hk ht hbad) image⟩

end Sys2Proof.Machine

/-! PROOFS, family other: the encodings (30_encoding.md): requests decoded and encoded, the opcode table's words, the
line descriptor. -/

namespace Sys2Proof.Machine

/-! ## Unlisted ports -/

theorem decodeIn_of_unlisted {p : Byte} (h : listedReads.contains p = false) : decodeIn p = .inOther p := by
  simp_all [listedReads, decodeIn]

theorem decodeOut_of_unlisted {p : Byte} (h : listedWrites.contains p = false) (v : Byte) :
    decodeOut p v = .outOther p v := by
  simp_all [listedWrites, decodeOut]

/-! ## Bytes with a field -/

theorem decodeNvrLatch_acceptAddr (din : Bool) :
    decodeNvrLatch (0x02 ||| (BitVec.ofBool din).setWidth 8) = .nvrAcceptAddr din := by
  cases din <;> rfl

theorem decodeNvrLatch_acceptData (din : Bool) :
    decodeNvrLatch (0x06 ||| (BitVec.ofBool din).setWidth 8) = .nvrAcceptData din := by
  cases din <;> rfl

theorem decodeA2_scrollLo (k : BitVec 2) : decodeA2 (k.setWidth 8) = .a2ScrollLo k := by
  revert k
  decide

theorem decodeA2_scrollHi (k : BitVec 2) : decodeA2 (0x04 ||| k.setWidth 8) = .a2ScrollHi k := by
  revert k
  decide

/-- An address is its two bytes, the high one first. -/
theorem addr_bytes (a : Addr) : a.extractLsb' 8 8 ++ a.extractLsb' 0 8 = a :=
  (BitVec.extractLsb'_append_extractLsb'_eq_extractLsb' rfl).trans BitVec.extractLsb'_eq_self

/-! ## The encoding of an operation -/

/-- The bytes of a well-formed operation decode to it, whatever follows. -/
theorem decodeBytes_encode {i : Instr} (hi : i.wellFormed = true) {f : Format} {bs : List Byte}
    (h : encode i = .bytes f bs) (rest : List Byte) : decodeBytes f (bs ++ rest) = .ok (i, rest) := by
  cases i <;> cases h
  case inOther p =>
    have hp : decodeIn p = .inOther p := decodeIn_of_unlisted (by simpa [Instr.wellFormed] using hi)
    simp [decodeBytes, hp]
  case outOther p v =>
    have hp : decodeOut p v = .outOther p v := decodeOut_of_unlisted (by simpa [Instr.wellFormed] using hi) v
    simp [decodeBytes, hp]
  case vidChar a b =>
    have hb : b ≠ terminatorByte := by simpa [Instr.wellFormed] using hi
    simp [decodeBytes, hb, addr_bytes]
  case nvrAcceptAddr din => simp only [List.cons_append, decodeBytes, decodeNvrLatch_acceptAddr, List.nil_append]
  case nvrAcceptData din => simp only [List.cons_append, decodeBytes, decodeNvrLatch_acceptData, List.nil_append]
  case a2ScrollLo k => simp only [List.cons_append, decodeBytes, decodeA2_scrollLo, List.nil_append]
  case a2ScrollHi k => simp only [List.cons_append, decodeBytes, decodeA2_scrollHi, List.nil_append]
  -- The other operations are fixed words, or a byte taken as it is.
  all_goals rfl

/-- An operation asked for by name is that operation. -/
theorem encode_call {i j : Instr} (h : encode i = .call j) : j = i := by
  cases i <;> cases h <;> rfl

theorem decode_encode {i : Instr} (hi : i.wellFormed = true) : decode (encode i) = .ok i := by
  cases h : encode i with
  | bytes f bs =>
    have hdecoded := decodeBytes_encode hi h []
    rw [List.append_nil] at hdecoded
    simp [decode, hdecoded]
  | call j =>
    obtain rfl := encode_call h
    simp [decode, h]

/-- Settles O52: `decode_encode` and `decodeBytes_encode`. -/
theorem decodeEncodeRoundTrip : Obligations.DecodeEncodeRoundTrip := fun _ hi =>
  ⟨decode_encode hi, fun _ _ rest h => decodeBytes_encode hi h rest⟩


/-! ## What decodes is well formed -/

/-- A read decodes to an operation whose word is that read (R102). -/
theorem encode_decodeIn (p : Byte) : encode (decodeIn p) = .bytes .port [p, 0] := by
  unfold decodeIn
  split_ifs with h00 h01 h42 h82
  case neg => rfl
  all_goals
    subst p
    rfl

/-- A write decodes to an operation whose word is that write (R102). -/
theorem encode_decodeOut (p v : Byte) : encode (decodeOut p v) = .bytes .port [p, 1, v] := by
  unfold decodeOut
  split_ifs with h00 h01 h02 h42 h62 h82 hA2 hC2
  case neg => rfl
  all_goals
    subst p
    rfl

theorem decodeIn_wellFormed (p : Byte) : (decodeIn p).wellFormed = true := by
  unfold decodeIn
  split_ifs
  case neg => simp_all [Instr.wellFormed, listedReads]
  all_goals rfl

theorem decodeOut_wellFormed (p v : Byte) : (decodeOut p v).wellFormed = true := by
  unfold decodeOut
  split_ifs
  case neg => simp_all [Instr.wellFormed, listedWrites]
  all_goals rfl

theorem decodeNvrLatch_wellFormed (b : Byte) : (decodeNvrLatch b).wellFormed = true := by
  unfold decodeNvrLatch
  dsimp only
  split <;> rfl

theorem decodeA2_wellFormed (b : Byte) : (decodeA2 b).wellFormed = true := by
  unfold decodeA2
  dsimp only
  split <;> rfl

theorem decodeC2_wellFormed (b : Byte) : (decodeC2 b).wellFormed = true := by
  unfold decodeC2
  split <;> rfl

/-- What a format's bytes decode to is well formed: an unlisted port is unlisted, a character no terminator. -/
theorem decodeBytes_wellFormed {f : Format} {bs rest : List Byte} {i : Instr}
    (h : decodeBytes f bs = .ok (i, rest)) : i.wellFormed = true := by
  revert h
  fun_cases decodeBytes f bs
  all_goals rintro ⟨⟩
  case case1 => exact decodeIn_wellFormed _
  case case2 => exact decodeOut_wellFormed _ _
  case case5 => exact decodeNvrLatch_wellFormed _
  case case6 => exact decodeA2_wellFormed _
  case case7 => exact decodeC2_wellFormed _
  case case12 hb => simpa [Instr.wellFormed] using hb
  all_goals rfl

/-- An operation with no encoding has no operand to check. -/
theorem wellFormed_of_encode_call {i j : Instr} (h : encode i = .call j) : i.wellFormed = true := by
  cases i <;> cases h <;> rfl

theorem decode_wellFormed {r : Request} {i : Instr} (h : decode r = .ok i) : i.wellFormed = true := by
  revert h
  fun_cases decode r
  case case1 hbytes => rintro ⟨⟩; exact decodeBytes_wellFormed hbytes
  case case3 hcall => rintro ⟨⟩; exact wellFormed_of_encode_call hcall
  all_goals exact nofun

/-- Settles O53: `decode_wellFormed`; a port word is the encoding of its operation by `encode_decodeIn` and
`encode_decodeOut`. -/
theorem portWordsDecodeOneToOne : Obligations.PortWordsDecodeOneToOne :=
  ⟨fun _ _ => decode_wellFormed,
    fun p v => ⟨⟨_, rfl, encode_decodeIn p⟩, ⟨_, rfl, encode_decodeOut p v⟩⟩⟩

/-! ## Fixed words and the line descriptor -/

/-- Settles O54: each word is closed and decodes by computation. -/
theorem tableWordsDecodeAsWritten : Obligations.TableWordsDecodeAsWritten := by
  unfold Obligations.TableWordsDecodeAsWritten
  decide

/-- The fields of a first byte, one byte for each (R120). -/
theorem decodeDesc_encodeDesc_first : ∀ (scroll : Bool) (attrCode : BitVec 2) (bank : Bool) (offHi : BitVec 4),
    decodeDesc (encodeDesc ⟨scroll, attrCode, bank, offHi, 0⟩).1 0 = ⟨scroll, attrCode, bank, offHi, 0⟩ := by
  decide

/-- The second byte is the field `offLo` as it is. -/
theorem decodeDesc_encodeDesc (f : DescFields) : decodeDesc (encodeDesc f).1 (encodeDesc f).2 = f :=
  congrArg (fun g : DescFields => { g with offLo := f.offLo })
    (decodeDesc_encodeDesc_first f.scroll f.attrCode f.bank f.offHi)

theorem encodeDesc_decodeDesc_first : ∀ d0 : Byte, (encodeDesc (decodeDesc d0 0)).1 = d0 := by
  decide

theorem encodeDesc_decodeDesc (d0 d1 : Byte) : encodeDesc (decodeDesc d0 d1) = (d0, d1) :=
  Prod.ext (encodeDesc_decodeDesc_first d0) rfl

/-- Settles O55: the first byte by its finitely many values, the second byte as it is. -/
theorem descriptorFieldsRoundTrip : Obligations.DescriptorFieldsRoundTrip :=
  ⟨decodeDesc_encodeDesc, encodeDesc_decodeDesc⟩

end Sys2Proof.Machine

/-! PROOFS, family other: the coupling of the units' registers while only outside agents invoke operations
(40_signal_generator.md R150, 10_state.md R29, R50, 43_io_dispatch.md R251 to R254). -/

namespace Sys2Proof.Machine

/-- The elements the coupling speaks of. -/
def isCoupled : Element → Bool
  | .sigPeriod _ | .dispC2 | .iofBaudReg | .serColumnsWide | .serControl => true
  | _ => false

/-- The coupling is kept where its elements are. -/
theorem coupled_congr {s t : State} (hcfg : t.cfg = s.cfg) (h : ∀ e, isCoupled e = true → sameElement e s t)
    (hs : s.Coupled) : t.Coupled := by
  have hperiod (x : SigId) : (t.sig.get x).periodHalf = (s.sig.get x).periodHalf := h (.sigPeriod x) rfl
  obtain ⟨hcolumns, h50hz, -⟩ := h .dispC2 rfl
  have hbaud : t.iof.baudReg = s.iof.baudReg := h .iofBaudReg rfl
  have hwide : t.ser.columnsWide = s.ser.columnsWide := h .serColumnsWide rfl
  obtain ⟨-, hcommand, hphase⟩ := h .serControl rfl
  have hlba4 := hperiod .lba4
  have hlba7 := hperiod .lba7
  have hvsync := hperiod .vsync
  have hbaudPeriod := hperiod .baud
  simp only [Signals.get] at hlba4 hlba7 hvsync hbaudPeriod
  simpa only [State.Coupled, hcfg, hcolumns, h50hz, hbaud, hwide, hcommand, hphase, hlba4, hlba7, hvsync,
    hbaudPeriod] using hs

/-- Of the operations that outside agents invoke, three port writes write elements of the coupling. -/
theorem external_coupled_writer {e : Element} {i : Instr} (he : isCoupled e = true) (hext : externalInstr i = true)
    (hw : mayWrite e i = true) : (∃ v, i = .out01 v) ∨ (∃ v, i = .out02 v) ∨ ∃ v, i = .outC2 v := by
  cases i
  case out01 v => exact .inl ⟨v, rfl⟩
  case out02 v => exact .inr (.inl ⟨v, rfl⟩)
  case outC2 v => exact .inr (.inr ⟨v, rfl⟩)
  -- The others are not invoked from outside, or write no element of the coupling.
  all_goals cases hext
  all_goals cases e <;> cases he <;> simp [mayWrite, isC2Columns, isC2Rate] at hw

/-! ## The three port writes -/

theorem serWriteCommand_command (v : Byte) (s : State) : (serWriteCommand v s).ser.command = v := by
  unfold serWriteCommand openChannel closeChannel
  (repeat' split) <;> rfl

/-- A control write leaves the mode-select phase, or is a RESET command (R29, R234). -/
theorem serWriteControl_phase (v : Byte) (s : State) (h : (serWriteControl v s).ser.modeSelectMode = true) :
    (serWriteControl v s).ser.command.getLsbD 6 = true := by
  cases hphase : s.ser.modeSelectMode
  case true => simp [serWriteControl, hphase] at h
  case false => simpa [serWriteControl, hphase, serWriteCommand_command] using h

theorem serWriteControl_coupled (v : Byte) {s : State} (hs : s.Coupled) : (serWriteControl v s).Coupled := by
  obtain ⟨hlba4, hlba7, hvsync, hbaud, hcolumns, -⟩ := hs
  have hwide : (serWriteControl v s).ser.columnsWide = s.ser.columnsWide :=
    exec_onlyWrites (i := .out01 v) rfl .serColumnsWide rfl
  refine ⟨by simpa, by simpa, by simpa, by simpa, by simpa [hwide], fun h => .inr (serWriteControl_phase v s h)⟩

theorem writeBaud_coupled (v : Byte) {s : State} (hs : s.Coupled) : (writeBaud v s).Coupled := by
  obtain ⟨hlba4, hlba7, hvsync, -, hcolumns, hphase⟩ := hs
  exact ⟨hlba4, hlba7, hvsync, .inl rfl, hcolumns, hphase⟩

/-- A change of width is the width flag's new value, whether or not it was one. -/
theorem serWriteCols_columnsWide (w : Bool) (s : State) : (serWriteCols w s).ser.columnsWide = w := by
  unfold serWriteCols
  split
  next h => exact h.symm
  next =>
    dsimp only
    split <;> rfl

@[simp] theorem setColumns_disp (wide : Bool) (s : State) :
    (setColumns wide s).disp = { s.disp with columns132 := wide, interlace := true } := by
  simp [setColumns]

theorem setColumns_coupled (wide : Bool) {s : State} (hs : s.Coupled) : (setColumns wide s).Coupled := by
  obtain ⟨hlba4, hlba7, hvsync, hbaud, -, hphase⟩ := hs
  have hwide : (setColumns wide s).ser.columnsWide = wide := serWriteCols_columnsWide wide _
  obtain ⟨-, hcommand, hmode⟩ : sameElement .serControl s (setColumns wide s) :=
    setColumns_onlyWrites (W := (mayWrite · .c2Cols80)) rfl rfl wide s .serControl rfl
  refine ⟨by simpa, by simpa, by simpa, by simpa, by simpa, ?_⟩
  rw [hcommand, hmode]
  exact hphase

theorem setRefreshRate_coupled (hz50 : Bool) {s : State} (hs : s.Coupled) : (setRefreshRate hz50 s).Coupled := by
  obtain ⟨hlba4, hlba7, -, hbaud, hcolumns, hphase⟩ := hs
  exact ⟨hlba4, hlba7, by cases hz50 <;> rfl, hbaud, hcolumns, hphase⟩

theorem c2Run_coupled (op : C2Op) {s : State} (hs : s.Coupled) : (c2Run op s).Coupled := by
  cases op
  case cols80 | cols132 => exact setColumns_coupled _ hs
  case hz60 | hz50 => exact setRefreshRate_coupled _ hs

theorem c2Fold_coupled (ops : List C2Op) {s : State} (hs : s.Coupled) :
    (ops.foldl (fun t op => c2Run op t) s).Coupled := by
  induction ops generalizing s with
  | nil => exact hs
  | cons op ops ih => exact ih (c2Run_coupled op hs)

/-! ## Every step -/

theorem exec_coupled {i : Instr} {s t : State} (hext : externalInstr i = true) (h : exec i s = .next t)
    (hs : s.Coupled) : t.Coupled := by
  by_cases hwriter : ∃ e, isCoupled e = true ∧ mayWrite e i = true
  · obtain ⟨e, he, hw⟩ := hwriter
    rcases external_coupled_writer he hext hw with ⟨v, rfl⟩ | ⟨v, rfl⟩ | ⟨v, rfl⟩ <;> cases h
    · exact serWriteControl_coupled v hs
    · exact writeBaud_coupled v hs
    · exact c2Fold_coupled _ hs
  · refine coupled_congr (exec_leaves h).1 (fun e he => exec_onlyWrites h e ?_) hs
    exact Bool.eq_false_iff.2 fun hw => hwriter ⟨e, he, hw⟩

theorem afterOperation_coupled (i : Instr) {t : State} (ht : t.Coupled) : (afterOperation i t).Coupled := by
  cases i <;> exact ht

theorem admitEvent_coupled (e : Event) {s : State} (hs : s.Coupled) : (admitEvent e s).Coupled := by
  simpa only [State.Coupled, admitEvent_leaves] using hs

/-- Settles O60: the cases of a step; an operation by `exec_coupled`, the rest of a step writes none of the coupled
elements (R150 is the spec's inference, the vertical period D25's, command and baud register 0 those of D36, log 10). -/
theorem externalStepsKeepUnitsCoupled : Obligations.ExternalStepsKeepUnitsCoupled := by
  intro s t hs hext h
  rcases step_cases h with ⟨-, rfl⟩ | ⟨e, rest, hq, ⟨-, rfl⟩ | ⟨-, hevent⟩⟩
  · exact hs
  · exact hs
  have hadmitted : (admitEvent e (s.withInbox rest)).Coupled := admitEvent_coupled e (s := s.withInbox rest) hs
  rcases hevent with ⟨r, i, u, ha, hd, hx, rfl⟩ | ⟨a, b, -, rfl⟩ | ⟨running, controlMode, -, rfl⟩
  · have hi : externalInstr i = true := by
      simpa [ha, externalAction, hd] using hext e (by simp [hq])
    exact afterOperation_coupled i (exec_coupled hi hx hadmitted)
  · exact hadmitted
  · exact hadmitted

end Sys2Proof.Machine

/-! PROOFS, family other: the phases of a STEP (43_io_dispatch.md R262 to R268, 60_exceptions.md R336 to R344). -/

namespace Sys2Proof.Machine

/-! ## The signals -/

/-- A STEP advances every signal once by its delta (R262, R142). -/
theorem peripheralPhase_sig (d : Nat) (s : State) (x : SigId) :
    (peripheralPhase d s).sig.get x = ((s.sig.get x).advance d).signal := by
  unfold peripheralPhase
  rw [clockPhase_sig _ _ _ _ (by simp), clockPhase_sig _ _ _ _ (by simp), clockPhase_sig _ _ _ _ (by simp),
    clockPhase_sig _ _ _ _ (by simp)]
  cases x <;> simp [Signals.get, Signals.put]

/-- The pacing counter is the pacing phase's (R263). -/
theorem pacePhase_pacingTicks (d : Nat) (s : State) :
    (pacePhase d s).host.pacingTicks =
      s.host.pacingTicks + (if isBlanked s.cfg s.disp.brightness = true then 0 else d) := by
  unfold pacePhase
  split <;> simp

theorem serialPhase_pacingTicks (s : State) : (serialPhase s).host.pacingTicks = s.host.pacingTicks := by
  rw [serialPhase_host]
  split <;> rfl

theorem peripheralPhase_pacingTicks (d : Nat) (s : State) :
    (peripheralPhase d s).host.pacingTicks =
      s.host.pacingTicks + (if isBlanked s.cfg s.disp.brightness = true then 0 else d) := by
  rw [peripheralPhase_host,
    clockPhase_keeps (fun t => t.host.pacingTicks) _ _ _ _ serialPhase_pacingTicks (by simp)]
  simpa using pacePhase_pacingTicks d s

/-- Settles O37: the signals by `peripheralPhase_sig`, the rest of the frame by `peripheralPhase_leaves`. -/
theorem stepAdvancesEverySignalOnce : Obligations.StepAdvancesEverySignalOnce := by
  intro d s
  refine ⟨peripheralPhase d s, rfl, fun x => ⟨_, rfl, ?_⟩, peripheralPhase_pacingTicks d s, by simp, by simp, by simp,
    by simp, by simp⟩
  rw [peripheralPhase_sig]
  simp


/-! ## The state after each phase, in order (D23) -/

/-- The state after the pacing, the fallback and the serial phase. -/
def afterSerial (d : Nat) (s : State) : State := clockPhase .baud d serialPhase (fallbackIrq (pacePhase d s))

/-- The state after the keyboard phase. -/
def afterKeyboard (d : Nat) (s : State) : State := clockPhase .lba4 d keyboardPhase (afterSerial d s)

/-- The state after the NVRAM phase. -/
def afterNvram (d : Nat) (s : State) : State := clockPhase .lba7 d nvrClock (afterKeyboard d s)

theorem peripheralPhase_eq (d : Nat) (s : State) :
    peripheralPhase d s = clockPhase .vsync d verticalPhase (afterNvram d s) := rfl

/-- Pacing and the fallback leave the signals as they were. -/
theorem sigRises_fallbackIrq_pacePhase (x : SigId) (d : Nat) (s : State) :
    sigRises x d (fallbackIrq (pacePhase d s)) = sigRises x d s :=
  sigRises_congr (by simp) x d

/-- A signal not yet advanced rises in its phase exactly as it would before the step. -/
theorem sigRises_afterSerial {x : SigId} (hx : x ≠ .baud) (d : Nat) (s : State) :
    sigRises x d (afterSerial d s) = sigRises x d s := by
  unfold afterSerial
  rw [clockPhase_rises _ _ _ _ (by simp) hx.symm, sigRises_fallbackIrq_pacePhase]

theorem sigRises_afterKeyboard {x : SigId} (hbaud : x ≠ .baud) (hlba4 : x ≠ .lba4) (d : Nat) (s : State) :
    sigRises x d (afterKeyboard d s) = sigRises x d s := by
  unfold afterKeyboard
  rw [clockPhase_rises _ _ _ _ (by simp) hlba4.symm, sigRises_afterSerial hbaud]

theorem sigRises_afterNvram (d : Nat) (s : State) : sigRises .vsync d (afterNvram d s) = sigRises .vsync d s := by
  unfold afterNvram
  rw [clockPhase_rises _ _ _ _ (by simp) (x := .lba7) (y := .vsync) nofun,
    sigRises_afterKeyboard (x := .vsync) nofun nofun]

/-- The serial phase leaves alone what the NVRAM clock looks at. -/
theorem afterSerial_leaves (d : Nat) (s : State) :
    (afterSerial d s).cfg = s.cfg ∧ (afterSerial d s).nvr = s.nvr ∧ (afterSerial d s).inputs = s.inputs := by
  unfold afterSerial
  refine ⟨?_, ?_, ?_⟩
  · rw [clockPhase_keeps State.cfg] <;> simp
  · rw [clockPhase_keeps State.nvr] <;> simp
  · rw [clockPhase_keeps State.inputs] <;> simp

/-- The keyboard phase writes nothing but a call (R266, D41). -/
theorem afterKeyboard_leaves (d : Nat) (s : State) :
    (afterKeyboard d s).cfg = s.cfg ∧ (afterKeyboard d s).nvr = s.nvr ∧ (afterKeyboard d s).inputs = s.inputs ∧
    (afterKeyboard d s).ser = (afterSerial d s).ser ∧ (afterKeyboard d s).iof = (afterSerial d s).iof := by
  obtain ⟨hcfg, hnvr, hinputs⟩ := afterSerial_leaves d s
  unfold afterKeyboard
  refine ⟨?_, ?_, ?_, ?_, ?_⟩
  · rw [clockPhase_keeps State.cfg, hcfg] <;> simp
  · rw [clockPhase_keeps State.nvr, hnvr] <;> simp
  · rw [clockPhase_keeps State.inputs, hinputs] <;> simp
  · rw [clockPhase_keeps State.ser] <;> simp
  · rw [clockPhase_keeps State.iof] <;> simp

/-- The NVRAM phase writes the chip and makes its calls. -/
theorem afterNvram_leaves (d : Nat) (s : State) :
    (afterNvram d s).cfg = s.cfg ∧ (afterNvram d s).ser = (afterSerial d s).ser ∧
    (afterNvram d s).iof = (afterSerial d s).iof := by
  obtain ⟨hcfg, -, -, hser, hiof⟩ := afterKeyboard_leaves d s
  unfold afterNvram
  refine ⟨?_, ?_, ?_⟩
  · rw [clockPhase_keeps State.cfg, hcfg] <;> simp
  · rw [clockPhase_keeps State.ser, hser] <;> simp
  · rw [clockPhase_keeps State.iof, hiof] <;> simp

/-! ## The units clocked -/

/-- The serial phase clocks the controller exactly when the baud signal rises (R265). -/
theorem afterSerial_ser (d : Nat) (s : State) :
    (afterSerial d s).ser = if sigRises .baud d s = true then (serClock s).ser else s.ser := by
  have hclock : (serClock (advanceSig .baud d (fallbackIrq (pacePhase d s)))).ser = (serClock s).ser :=
    (serClock_congr (by simp) (by simp)).1
  unfold afterSerial
  rw [clockPhase_view State.ser _ _ _ _ (by simp), serialPhase_ser, sigRises_fallbackIrq_pacePhase, hclock]
  simp

/-- The NVRAM phase clocks the chip exactly when LBA7 rises (R267). -/
theorem afterNvram_nvr (d : Nat) (s : State) :
    (afterNvram d s).nvr = if sigRises .lba7 d s = true then (nvrClock s).nvr else s.nvr := by
  obtain ⟨hcfg, hnvr, -⟩ := afterKeyboard_leaves d s
  have hclock : (nvrClock (advanceSig .lba7 d (afterKeyboard d s))).nvr = (nvrClock s).nvr :=
    nvrClock_congr (by simpa using hnvr) (by simpa using hcfg)
  unfold afterNvram
  rw [clockPhase_view State.nvr _ _ _ _ (by simp), sigRises_afterKeyboard (x := .lba7) nofun nofun, hclock, hnvr]

/-- The calls of the serial phase (R265). -/
theorem afterSerial_events (d : Nat) (s : State) :
    ∃ calls, (serClock s).events = calls ++ s.events ∧
      (afterSerial d s).events = (if sigRises .baud d s = true then calls else []) ++ s.events := by
  obtain ⟨calls, hs, ht⟩ := serClock_calls (s := s) (t := advanceSig .baud d (fallbackIrq (pacePhase d s)))
    (by simp) (by simp)
  refine ⟨calls, hs, ?_⟩
  unfold afterSerial
  rw [clockPhase_view State.events _ _ _ _ (by simp), serialPhase_events, sigRises_fallbackIrq_pacePhase, ht]
  split <;> simp

/-- The call of the keyboard phase (R266). -/
theorem afterKeyboard_events (d : Nat) (s : State) :
    (afterKeyboard d s).events =
      (if sigRises .lba4 d s = true then [.kbdClock] else []) ++ (afterSerial d s).events := by
  unfold afterKeyboard
  rw [clockPhase_view State.events _ _ _ _ (by simp), sigRises_afterSerial (x := .lba4) nofun]
  split <;> simp [keyboardPhase]

/-- The calls of the NVRAM phase (R267). -/
theorem afterNvram_events (d : Nat) (s : State) :
    ∃ calls, (nvrClock s).events = calls ++ s.events ∧
      (afterNvram d s).events = (if sigRises .lba7 d s = true then calls else []) ++ (afterKeyboard d s).events := by
  obtain ⟨hcfg, hnvr, hinputs, -⟩ := afterKeyboard_leaves d s
  obtain ⟨calls, hs, ht⟩ := nvrClock_calls (s := s) (t := advanceSig .lba7 d (afterKeyboard d s))
    (by simpa using hnvr) (by simpa using hcfg) (by simpa using hinputs)
  refine ⟨calls, hs, ?_⟩
  unfold afterNvram
  rw [clockPhase_view State.events _ _ _ _ (by simp), sigRises_afterKeyboard (x := .lba7) nofun nofun, ht]
  split <;> simp

/-! ## The fabric -/

/-- Pacing does not touch what the fallback looks at. -/
theorem fallbackIrq_pacePhase_iof (d : Nat) (s : State) : (fallbackIrq (pacePhase d s)).iof = (fallbackIrq s).iof := by
  unfold fallbackIrq
  simp only [pacePhase_leaves]
  split <;> simp

/-- The fabric after the serial phase: a request of the controller merged on a true clock (R265, R336). -/
theorem afterSerial_iof (d : Nat) (s : State) :
    (afterSerial d s).iof =
      if sigRises .baud d s = true ∧ serClockResult s = true then
        { (fallbackIrq s).iof with
          intPending := true
          intVector := mergeVector s.cfg (fallbackIrq s).iof.intVector .serial }
      else (fallbackIrq s).iof := by
  have hresult : serClockResult (advanceSig .baud d (fallbackIrq (pacePhase d s))) = serClockResult s :=
    (serClock_congr (by simp) (by simp)).2
  unfold afterSerial
  rw [clockPhase_view State.iof _ _ _ _ (by simp), serialPhase_iof, sigRises_fallbackIrq_pacePhase, hresult]
  simp only [advanceSig_leaves, fallbackIrq_pacePhase_iof, fallbackIrq_leaves, pacePhase_leaves, ite_and]

/-- The fabric after a STEP: a vertical request merged and a tick counted on a rise of vsync (R268, R336). -/
theorem peripheralPhase_iof (d : Nat) (s : State) :
    (peripheralPhase d s).iof =
      if sigRises .vsync d s = true then
        { (afterSerial d s).iof with
          intPending := true
          intVector := mergeVector s.cfg (afterSerial d s).iof.intVector .vertical
          refreshPending := (afterSerial d s).iof.refreshPending + 1 }
      else (afterSerial d s).iof := by
  obtain ⟨hcfg, -, hiof⟩ := afterNvram_leaves d s
  rw [peripheralPhase_eq, clockPhase_view State.iof _ _ _ _ (by simp), sigRises_afterNvram, ← hiof, ← hcfg]
  simp [verticalPhase, raiseIrq]

/-! ## The statements about a STEP -/

/-- A serial clock asked for by name answers what the serial phase looks at (R200). -/
theorem exec_serClk {s c : State} (h : exec .serClk s = .next c) :
    c.ser = (serClock s).ser ∧ c.events = (serClock s).events ∧ (c.result = .flag true ↔ serClockResult s = true) := by
  cases h
  simp

theorem fallbackIrq_keeps (s : State) :
    (fallbackIrq s).iof.intPending = s.iof.intPending ∧ (fallbackIrq s).iof.refreshPending = s.iof.refreshPending := by
  rcases fallbackIrq_iof s with h | h <;> simp [h]

theorem peripheralPhase_refreshPending (d : Nat) (s : State) :
    (peripheralPhase d s).iof.refreshPending =
      s.iof.refreshPending + (if sigRises .vsync d s = true then 1 else 0) := by
  have hserial : (afterSerial d s).iof.refreshPending = s.iof.refreshPending := by
    rw [afterSerial_iof, ← (fallbackIrq_keeps s).2]
    split <;> rfl
  rw [peripheralPhase_iof, ← hserial]
  split <;> rfl

theorem peripheralPhase_intPending (d : Nat) (s : State) :
    (peripheralPhase d s).iof.intPending = true ↔
      s.iof.intPending = true ∨ sigRises .vsync d s = true ∨
        (sigRises .baud d s = true ∧ serClockResult s = true) := by
  rw [peripheralPhase_iof, afterSerial_iof, ← (fallbackIrq_keeps s).1]
  by_cases hserial : sigRises .baud d s = true ∧ serClockResult s = true <;>
    by_cases hvertical : sigRises .vsync d s = true <;> simp [hserial, hvertical]

/-- The vertical phase writes the fabric only, so the units and the calls are those of the phases before it. -/
theorem peripheralPhase_units (d : Nat) (s : State) :
    (peripheralPhase d s).nvr = (afterNvram d s).nvr ∧ (peripheralPhase d s).ser = (afterSerial d s).ser ∧
    (peripheralPhase d s).events = (afterNvram d s).events := by
  rw [peripheralPhase_eq, ← (afterNvram_leaves d s).2.1]
  refine ⟨?_, ?_, ?_⟩
  · rw [clockPhase_keeps State.nvr] <;> simp
  · rw [clockPhase_keeps State.ser] <;> simp
  · rw [clockPhase_keeps State.events] <;> simp

/-- Settles O38: each unit by its phase, the fabric by `peripheralPhase_iof`, the calls by the phases that make them;
the other elements have no STEP among their writers. -/
theorem stepClocksUnitsOnRisingTransitions : Obligations.StepClocksUnitsOnRisingTransitions := by
  intro d s t c n ht hc hn
  have hwrites := exec_onlyWrites ht
  obtain ⟨hcser, hcevents, hcresult⟩ := exec_serClk hc
  cases ht
  cases hn
  obtain ⟨hnvr, hser, hevents⟩ := peripheralPhase_units d s
  obtain ⟨serialCalls, hserial, hafterSerial⟩ := afterSerial_events d s
  obtain ⟨nvrCalls, hnvram, hafterNvram⟩ := afterNvram_events d s
  refine ⟨hnvr.trans (afterNvram_nvr d s), ?_, peripheralPhase_refreshPending d s, ?_,
    ⟨serialCalls, nvrCalls, hcevents.trans hserial, hnvram, ?_⟩, hwrites .iofBaudReg rfl, hwrites .iofServiced rfl,
    hwrites .hostRunning rfl⟩
  · rw [hser, hcser, afterSerial_ser]
  · rw [hcresult]
    exact peripheralPhase_intPending d s
  · rw [hevents, hafterNvram, afterKeyboard_events, hafterSerial]

/-! ## The vector -/

/-- Under the guard, an idle vector is the fallback already, so the fallback changes nothing (R344, D22). -/
theorem fallbackIrq_of_idle {s : State} (hguard : s.cfg.fallbackGuarded = true) (hidle : IdleVectorIsFallback s) :
    (fallbackIrq s).iof.intVector = s.iof.intVector := by
  unfold fallbackIrq
  split
  next h =>
    have hpending : s.iof.intPending = false := by simpa [hguard] using (Bool.and_eq_true_iff.1 h).2
    exact (hidle hpending).symm
  next => rfl

/-- The default merge is OR (R336, D22). -/
theorem mergeVector_of_orIn {c : Config} (h : c.vecMerge = .orIn) (v : Byte) (src : IrqSource) :
    mergeVector c v src = v ||| vectorOf c src := by
  simp [mergeVector, h]

/-- Settles O39: the fallback leaves an idle vector (`fallbackIrq_of_idle`), and each phase merges its source on its own
condition. -/
theorem stepMergesRaisedSources : Obligations.StepMergesRaisedSources := by
  intro d s t c hmerge hguard hidle ht hc
  obtain ⟨-, -, hcresult⟩ := exec_serClk hc
  cases ht
  simp only [hcresult]
  rw [peripheralPhase_iof, afterSerial_iof, ← fallbackIrq_of_idle hguard hidle]
  by_cases hserial : sigRises .baud d s = true ∧ serClockResult s = true <;>
    by_cases hvertical : sigRises .vsync d s = true <;>
      simp [hserial, hvertical, mergeVector_of_orIn hmerge, vectorOf]

end Sys2Proof.Machine

/-! PROOFS, family other: the dividers (40_signal_generator.md R141 to R145). -/

namespace Sys2Proof.Machine

/-- Settles O1: the two cases of `Signal.advance`, the half period reached or not (D1, D3). -/
theorem sigAdvFlipsOnceAndKeepsExcess : Obligations.SigAdvFlipsOnceAndKeepsExcess := by
  intro x d s
  show Host.Outcome.next ((advanceSig x d s).answer _) = _
  unfold advanceSig Signal.advance
  by_cases h : (s.sig.get x).periodHalf ≤ (s.sig.get x).ticks + d
  · simp only [ge_iff_le, if_pos h]
    rfl
  · simp only [ge_iff_le, if_neg h]
    rfl

/-! ## Sequences of calls -/

/-- A sequence of calls keeps the half period (R142). -/
theorem advanceAll_periodHalf (g : Signal) (ds : List Nat) : (advanceAll g ds).signal.periodHalf = g.periodHalf := by
  induction ds generalizing g with
  | nil => rfl
  | cons d ds ih => exact (ih _).trans (g.advance_spec d).2.1

/-- No tick is lost: what is not in the accumulator went into flips (R142). -/
theorem advanceAll_ticks (g : Signal) (ds : List Nat) :
    (advanceAll g ds).signal.ticks + g.periodHalf * (advanceAll g ds).flips = g.ticks + ds.sum := by
  induction ds generalizing g with
  | nil => rfl
  | cons d ds ih =>
    obtain ⟨hticks, hperiod, -⟩ := g.advance_spec d
    have hrest := ih (g.advance d).signal
    rw [hperiod] at hrest
    simp only [advanceAll, List.sum_cons, Nat.mul_add]
    omega

theorem advanceAll_flips_le (g : Signal) (ds : List Nat) : (advanceAll g ds).flips ≤ ds.length := by
  induction ds generalizing g with
  | nil => exact Nat.le_refl 0
  | cons d ds ih => exact Nat.add_le_add (ih _) (Bool.toNat_le _)

/-- With a half period of zero every call reaches it (R145). -/
theorem advanceAll_flips_of_periodHalf_zero {g : Signal} (hg : g.periodHalf = 0) (ds : List Nat) :
    (advanceAll g ds).flips = ds.length := by
  induction ds generalizing g with
  | nil => rfl
  | cons d ds ih =>
    obtain ⟨-, hperiod, -, -, htoggled⟩ := g.advance_spec d
    have ht : (g.advance d).toggled = true := htoggled.2 (by omega)
    simp [advanceAll, ih (hperiod.trans hg), ht]

/-- Settles O4: `advanceAll_ticks` and `advanceAll_flips_le`; with a half period of zero all ticks stay in the
accumulator. -/
theorem sigNeverLosesCycles : Obligations.SigNeverLosesCycles := by
  intro g ds
  refine ⟨advanceAll_ticks g ds, advanceAll_flips_le g ds, fun hg => ⟨advanceAll_flips_of_periodHalf_zero hg ds, ?_⟩⟩
  simpa [hg] using advanceAll_ticks g ds

/-- In steady state an advance leaves the accumulator below the half period (R144). -/
theorem Signal.advance_ticks_lt {g : Signal} {d : Nat} (hticks : g.ticks < g.periodHalf) (hd : d ≤ g.periodHalf) :
    (g.advance d).signal.ticks < g.periodHalf := by
  unfold Signal.advance
  split
  next => show g.ticks + d - g.periodHalf < g.periodHalf; omega
  next h => exact Nat.lt_of_not_le h

theorem advanceAll_ticks_lt {g : Signal} {ds : List Nat} (hticks : g.ticks < g.periodHalf)
    (hds : ∀ d ∈ ds, d ≤ g.periodHalf) : (advanceAll g ds).signal.ticks < g.periodHalf := by
  induction ds generalizing g with
  | nil => exact hticks
  | cons d ds ih =>
    obtain ⟨hd, hds⟩ := List.forall_mem_cons.1 hds
    have hperiod := (g.advance_spec d).2.1
    have hrest := ih (g := (g.advance d).signal) (by rw [hperiod]; exact Signal.advance_ticks_lt hticks hd)
      (by rwa [hperiod])
    rwa [hperiod] at hrest

/-- Every second flip is a rise, the first one from a low level (R144, D3). -/
theorem advanceAll_rises (g : Signal) (ds : List Nat) :
    (advanceAll g ds).rises = ((advanceAll g ds).flips + (!g.value).toNat) / 2 := by
  induction ds generalizing g with
  | nil => cases h : g.value <;> simp [advanceAll]
  | cons d ds ih =>
    obtain ⟨-, -, hvalue, hrose, -⟩ := g.advance_spec d
    simp only [advanceAll, ih, hvalue, hrose]
    cases g.value <;> cases (g.advance d).toggled
    -- A flip from low is a rise, and the flips after it start from high.
    case false.true => exact (Nat.add_div_right _ (by decide)).symm
    all_goals rfl

/-- Settles O3: the accumulator stays below the half period, so `advanceAll_ticks` is division with remainder; the rises
by `advanceAll_rises`. -/
theorem sigSteadyStateCounts : Obligations.SigSteadyStateCounts := by
  intro g ds hperiod hticks hds
  have hlt := advanceAll_ticks_lt hticks hds
  rw [← advanceAll_ticks g ds]
  refine ⟨?_, ?_, advanceAll_periodHalf g ds, fun hlow => ?_⟩
  · rw [Nat.add_mul_div_left _ _ hperiod, Nat.div_eq_of_lt hlt, Nat.zero_add]
  · rw [Nat.add_mul_mod_self_left, Nat.mod_eq_of_lt hlt]
  · rw [advanceAll_rises, hlow]
    rfl

end Sys2Proof.Machine

/-! PROOFS, family other: the NVRAM chip (41_nvram.md R161 to R172, 30_encoding.md R105, 70_reset_and_hazards.md R380,
R384). -/

namespace Sys2Proof.Machine

/-! ## The clock and the commands -/

/-- Under the default code map, a latch byte's code and data bit name the operation it decodes to (D7, D8). -/
theorem decodeNvrLatch_eq (b : Byte) :
    decodeNvrLatch b = commandInstr (standardCommands.get (b.extractLsb' 1 3).toFin) (b.getLsbD 0) := by
  unfold decodeNvrLatch
  dsimp only
  generalize b.getLsbD 0 = din
  generalize b.extractLsb' 1 3 = code
  revert din code
  decide

/-- Settles O5: the clock runs the latched command by `exec_commandInstr`; under the defaults that is the decoded one
by `decodeNvrLatch_eq`. -/
theorem nvrClkRunsLatchedCommand : Obligations.NvrClkRunsLatchedCommand := by
  intro s
  refine ⟨⟨_, rfl, exec_commandInstr _ _ s⟩, fun hlatch hcommands => ?_⟩
  have hclock : exec .nvrClk s =
      exec (commandInstr (nvrCommandOf s.cfg (nvrCode s.cfg s.nvr.latch)) (nvrDataBit s.cfg s.nvr.latch)) s :=
    (exec_commandInstr _ _ s).symm
  rw [hclock, decodeNvrLatch_eq]
  simp only [nvrCommandOf, nvrCode, nvrDataBit, hlatch, hcommands]

/-- Settles O8: a shift with a bit entering is doubling and adding (`shiftIn_eq`). -/
theorem nvrAcceptDataShiftsLeftOr : Obligations.NvrAcceptDataShiftsLeftOr := by
  intro din s
  rw [← shiftIn_eq]
  rfl

/-- A persist writes nothing but its calls (R168). -/
theorem nvrPersist_eq (table : Vector CellWord 100) (s : State) :
    nvrPersist table s = { s with
      events := (if s.inputs.nvrSaveOk then [] else [.log .nvrSaveFailed]) ++ .nvrSave table :: s.events } := by
  rw [← nvrPersist_events]
  rfl

/-- Settles O12: the repeated pair, a store below the threshold, and a store with its persist (`nvrPersist_eq`). -/
theorem nvrWriteStoresUnlessRepeated : Obligations.NvrWriteStoresUnlessRepeated := by
  intro s
  show Host.Outcome.next (nvrWrite s) = _
  unfold nvrWrite
  split
  · rfl
  unfold nvrStore
  dsimp only
  split
  · rw [nvrPersist_eq]
    rfl
  · rfl

/-- After a WRITE, the pair in the registers is the one last stored, and the registers are as before (R167). -/
theorem nvrWrite_nvr (s : State) :
    (nvrWrite s).nvr.lastWrite = some (decodeAddr s.nvr.addressReg, s.nvr.dataReg) ∧
    (nvrWrite s).nvr.addressReg = s.nvr.addressReg ∧ (nvrWrite s).nvr.dataReg = s.nvr.dataReg := by
  unfold nvrWrite
  split
  next h => exact ⟨h, rfl, rfl⟩
  unfold nvrStore
  dsimp only
  split <;> simp

/-- A WRITE of the pair last stored does nothing (R167, R380). -/
theorem nvrWrite_of_repeated {s : State}
    (h : s.nvr.lastWrite = some (decodeAddr s.nvr.addressReg, s.nvr.dataReg)) : nvrWrite s = s := by
  simp [nvrWrite, h]

/-- Settles O13: `nvrWrite_nvr` makes both later writes repeats, since ERASE writes the cell only (D10). -/
theorem nvrWriteRepeatsAndErasedRewriteIsLost : Obligations.NvrWriteRepeatsAndErasedRewriteIsLost := by
  intro s t u ht hu
  cases ht
  cases hu
  obtain ⟨hlast, haddress, hdata⟩ := nvrWrite_nvr s
  have hrepeated : (nvrWrite s).nvr.lastWrite =
      some (decodeAddr (nvrWrite s).nvr.addressReg, (nvrWrite s).nvr.dataReg) := by rw [hlast, haddress, hdata]
  refine ⟨congrArg Host.Outcome.next (nvrWrite_of_repeated hrepeated),
    congrArg Host.Outcome.next (nvrWrite_of_repeated (s := nvrErase (nvrWrite s)) hrepeated), ?_⟩
  rw [← haddress]
  exact Vector.get_set_cell _ _ _

/-- After a shift, the bit of a clock is the bit of the next clock before it, and low when there is none (R170,
R172). -/
theorem shiftOut_bit_succ (r : CellWord) (k : Nat) :
    (decide (k < 14) && (r <<< 1).getLsbD (13 - k)) = (decide (k + 1 < 14) && r.getLsbD (13 - (k + 1))) := by
  rcases Nat.lt_or_ge k 13 with hk | hk
  · have hplace : 13 - k ≠ 0 := by omega
    have hinside : k < 14 := by omega
    have hword : 13 - k < 14 := by omega
    have hnext : k + 1 < 14 := by omega
    have hword' : 12 - k < 14 := by omega
    simp [hplace, hinside, hword, hword', hnext, Nat.sub_sub]
  · have hplace : 13 - k = 0 := by omega
    have hlast : ¬k + 1 < 14 := by omega
    simp [hplace, hlast]

/-- Settles O14: a run of clocks is one clock and a shorter run on the register moved up one bit, with a zero entering
(the mask at every shift is D11, log 22; the zero is R170's inference). -/
theorem nvrShiftOutPresentsHighBitFirst : Obligations.NvrShiftOutPresentsHighBitFirst := by
  intro k s
  induction k generalizing s with
  | zero => rfl
  | succ k ih =>
    have hregister : s.nvr.dataReg <<< 1 <<< (k + 1) = s.nvr.dataReg <<< (k + 1 + 1) := by
      rw [← BitVec.shiftLeft_add, Nat.add_comm 1]
    show execAll (List.replicate (k + 1) .nvrShiftOut) (nvrShiftOut s) = _
    rw [ih (nvrShiftOut s), ← shiftOut_bit_succ, ← hregister]
    rfl

/-! ## The address decoder -/

/-- The fold keeps the last place whose bit is set, or what it started with if there is none. -/
theorem foldl_lastSet {inv : BitVec 10} {l : List (Fin 10)} (hl : l.Pairwise (· < ·)) {start digit : Fin 10}
    (h : l.foldl (fun (digit i : Fin 10) => if inv.getLsbD i.val then i else digit) start = digit) :
    (digit ∈ l ∧ inv.getLsbD digit.val = true ∧ ∀ i ∈ l, digit < i → inv.getLsbD i.val = false) ∨
      (digit = start ∧ ∀ i ∈ l, inv.getLsbD i.val = false) := by
  induction l generalizing start with
  | nil => exact .inr ⟨h.symm, nofun⟩
  | cons x xs ih =>
    obtain ⟨hx, hxs⟩ := List.pairwise_cons.1 hl
    rcases ih hxs h with ⟨hmem, hset, habove⟩ | ⟨hdigit, hnone⟩
    · exact .inl ⟨List.mem_cons_of_mem x hmem, hset,
        List.forall_mem_cons.2 ⟨fun hlt => absurd hlt (hx digit hmem).not_gt, habove⟩⟩
    · by_cases hbit : inv.getLsbD x.val = true
      · obtain rfl : digit = x := hdigit.trans (if_pos hbit)
        exact .inl ⟨List.mem_cons_self, hbit,
          List.forall_mem_cons.2 ⟨fun hlt => absurd hlt (lt_irrefl digit), fun i hi _ => hnone i hi⟩⟩
      · exact .inr ⟨hdigit.trans (if_neg hbit), List.forall_mem_cons.2 ⟨Bool.eq_false_iff.2 hbit, hnone⟩⟩

/-- A bit of a decade of the inverted register. -/
theorem inverted_decade_bit (a : BitVec 20) {base i : Nat} (hbase : base ≤ 10) (hi : i < 10) :
    ((~~~a).extractLsb' base 10).getLsbD i = !a.getLsbD (base + i) := by
  have hinside : base + i < 20 := by omega
  simp [hi, hinside]

/-- The digit of a decade is its highest clear bit, or 0 if all are set (R162; the empty decade is D9). -/
theorem decadeDigit_spec (a : BitVec 20) {base : Nat} (hbase : base ≤ 10) {digit : Fin 10}
    (h : decadeDigit ((~~~a).extractLsb' base 10) = digit) :
    (∀ i, digit.val < i → i < 10 → a.getLsbD (base + i) = true) ∧
    (a.getLsbD (base + digit.val) = false ∨ (digit.val = 0 ∧ ∀ i < 10, a.getLsbD (base + i) = true)) := by
  have hbit (i : Nat) (hi : i < 10) := inverted_decade_bit a hbase hi
  rcases foldl_lastSet (List.pairwise_lt_finRange 10) h with ⟨-, hclear, habove⟩ | ⟨hzero, hnone⟩
  · rw [hbit _ digit.isLt, Bool.not_eq_true'] at hclear
    refine ⟨fun i hlt hi => ?_, .inl hclear⟩
    have hset := habove ⟨i, hi⟩ (List.mem_finRange _) hlt
    rwa [hbit i hi, Bool.not_eq_false'] at hset
  · have hall : ∀ i < 10, a.getLsbD (base + i) = true := fun i hi => by
      have hset := hnone ⟨i, hi⟩ (List.mem_finRange _)
      rwa [hbit i hi, Bool.not_eq_false'] at hset
    exact ⟨fun i _ hi => hall i hi, .inr ⟨by simp [hzero], hall⟩⟩

/-- Settles O9: `decadeDigit_spec` for both decades. -/
theorem nvrDecodeAddrTakesHighestClearBit : Obligations.NvrDecodeAddrTakesHighestClearBit := by
  intro a
  obtain ⟨htens, htens'⟩ := decadeDigit_spec a (base := 10) (by decide) rfl
  obtain ⟨hones, hones'⟩ := decadeDigit_spec a (base := 0) (by decide) rfl
  simp only [Nat.zero_add] at hones hones'
  exact ⟨_, _, rfl, Fin.isLt _, Fin.isLt _, hones, hones', htens, htens'⟩

/-! ## Presenting the code of a cell -/

/-- The code of a cell has two clear bits, one in each decade (R105). -/
theorem canonicalAddr_bit (tens ones : Fin 10) {i : Nat} (hi : i < 20) :
    (canonicalAddr tens ones).getLsbD i = decide (i ≠ 10 + tens.val ∧ i ≠ ones.val) := by
  have hcode : canonicalAddr tens ones = ~~~(BitVec.twoPow 20 (10 + tens.val) ||| BitVec.twoPow 20 ones.val) := rfl
  have htens : 10 + tens.val < 20 := by omega
  have hones : ones.val < 20 := by omega
  rw [hcode, BitVec.getLsbD_not, BitVec.getLsbD_or, BitVec.getLsbD_twoPow, BitVec.getLsbD_twoPow]
  simp [hi, htens, hones, eq_comm (a := i)]

/-- A decade with one clear bit has that digit. -/
theorem decadeDigit_of_one_clear {a : BitVec 20} {base : Nat} (hbase : base ≤ 10) (digit : Fin 10)
    (h : ∀ i < 10, a.getLsbD (base + i) = decide (i ≠ digit.val)) :
    decadeDigit ((~~~a).extractLsb' base 10) = digit := by
  rcases (decadeDigit_spec a hbase rfl).2 with hclear | ⟨-, hall⟩
  · rw [h _ (Fin.isLt _)] at hclear
    exact Fin.ext (by simpa using hclear)
  · have hset := hall digit.val digit.isLt
    rw [h _ digit.isLt] at hset
    simp at hset

theorem decodeAddr_canonicalAddr (tens ones : Fin 10) :
    (decodeAddr (canonicalAddr tens ones)).val = 10 * tens.val + ones.val := by
  have htens : decadeDigit ((~~~canonicalAddr tens ones).extractLsb' 10 10) = tens :=
    decadeDigit_of_one_clear (by decide) tens fun i hi => by
      have hother : 10 + i ≠ ones.val := by omega
      rw [canonicalAddr_bit tens ones (by omega)]
      simp [hother]
  have hones : decadeDigit ((~~~canonicalAddr tens ones).extractLsb' 0 10) = ones :=
    decadeDigit_of_one_clear (by decide) ones fun i hi => by
      have hother : i ≠ 10 + tens.val := by omega
      rw [canonicalAddr_bit tens ones (by omega)]
      simp [hother]
  simp only [decodeAddr, htens, hones]
  omega

/-- A sequence after one that completes. -/
theorem execAll_append {is js : List Instr} {s t : State} (h : execAll is s = .next t) :
    execAll (is ++ js) s = execAll js t := by
  induction is generalizing s with
  | nil =>
    cases h
    rfl
  | cons i is ih =>
    simp only [execAll, List.cons_append] at h ⊢
    cases hi : exec i s with
    | next u =>
      rw [hi] at h
      exact ih h
    | fault r => rw [hi] at h; cases h
    | refused r => rw [hi] at h; cases h

/-- Settles O10: twenty clocks load the code (`foldl_shiftIn_addressBits`), which decodes to its cell
(`decodeAddr_canonicalAddr`). -/
theorem nvrReadProtocolReachesCell : Obligations.NvrReadProtocolReachesCell := by
  intro tens ones cell s hcell
  obtain rfl : cell = decodeAddr (canonicalAddr tens ones) :=
    Fin.ext (hcell.trans (decodeAddr_canonicalAddr tens ones).symm)
  have hload := execAll_nvrAcceptAddr (addressBits (canonicalAddr tens ones)) s
  rw [foldl_shiftIn_addressBits] at hload
  rw [execAll_append hload]
  rfl

end Sys2Proof.Machine

/-! PROOFS, family other: the serial controller (42_serial_controller.md R192 to R204). -/

namespace Sys2Proof.Machine

/-! ## The channel -/

theorem closeChannel_of_opened {s : State} {h : Nat} (hs : s.ser.channel = .opened h) :
    closeChannel s = (s.emit (.ptyClose h)).withSer { s.ser with channel := .closed } := by
  simp [closeChannel, hs]

/-- A host that cannot open the pty leaves the channel closed, and the failure is logged (D43). -/
theorem openChannel_of_failure {s : State} (hclosed : s.ser.channel = .closed) (hopen : s.inputs.ptyOpen = none) :
    openChannel s = (s.emit (.ptyOpen 24 80)).emit (.log .ptyOpenFailed) := by
  unfold openChannel
  rw [hopen, ← hclosed]
  rfl

/-- Settles O18: the two states of the channel, the bits its test looks at, and the host's answer to an open (D13,
D43). -/
theorem serCommandOpensAndHangsUp : Obligations.SerCommandOpensAndHangsUp := by
  intro v s
  show Host.Outcome.next (serWriteCommand v s) = _
  unfold serWriteCommand
  cases hchannel : s.ser.channel with
  | closed =>
    by_cases hbits : v.getLsbD 0 = true ∧ v.getLsbD 2 = true
    · cases hopen : s.inputs.ptyOpen with
      | some h =>
        simp only [hbits, openChannel_of_ptyOpen (s := serLatchCommand v s) hopen]
        rfl
      | none =>
        simp only [hbits, openChannel_of_failure (s := serLatchCommand v s) hchannel hopen]
        rfl
    · simp only [Bool.and_eq_true, if_neg hbits]
      rfl
  | opened h =>
    cases hbit : v.getLsbD 1
    · simp only [closeChannel_of_opened (s := serLatchCommand v s) hchannel]
      rfl
    · rfl

/-! ## Data -/

/-- A byte that the host takes is one call (R195). -/
theorem serTransmit_of_ok {s : State} (hok : s.inputs.ptyWriteOk = true) (h : Nat) (v : Byte) :
    serTransmit h v s = s.emit (.ptyWrite h v) := by
  simp [serTransmit, hok]

/-- A write error closes the channel (R197). -/
theorem serTransmit_of_error {s : State} {h : Nat} (hchannel : s.ser.channel = .opened h)
    (herror : s.inputs.ptyWriteOk = false) (v : Byte) :
    serTransmit h v s =
      ((s.emit (.ptyWrite h v)).emit (.ptyClose h)).withSer { s.ser with channel := .closed } := by
  have hclose := closeChannel_of_opened (s := s.emit (.ptyWrite h v)) hchannel
  simp [serTransmit, herror, hclose]

/-- Settles O19: the classes of the byte in the order of the tests, and the state of the channel (D17, D18). -/
theorem serDataByteByClass : Obligations.SerDataByteByClass := by
  intro v s
  show Host.Outcome.next (serWriteData v s) = _
  unfold serWriteData
  split
  · cases s.ser.channel <;> rfl
  split
  · rfl
  split
  · rfl
  cases hchannel : s.ser.channel with
  | closed => rfl
  | opened h =>
    cases hok : s.inputs.ptyWriteOk
    · exact congrArg Host.Outcome.next (serTransmit_of_error hchannel hok v)
    · exact congrArg Host.Outcome.next (serTransmit_of_ok hok h v)

/-- Settles O20: the data read is its definition; bit 7 is the fixed 0x80, and the default layout fixes the other bits
(D14, D15). -/
theorem serReadsDataAndStatus : Obligations.SerReadsDataAndStatus := by
  intro s
  refine ⟨rfl, _, rfl, ?_, fun hstatus => ?_⟩
  · simp [serStatus]
  · cases hready : s.ser.rxReady <;> simp only [serStatus, hstatus] <;> rfl

/-! ## The clock -/

/-- Data found is stored with the ready flag (R200). -/
theorem serPoll_of_data {s : State} {b : Byte} (hread : s.inputs.ptyRead = some b) (h : Nat) :
    serPoll h s = (s.emit (.ptyRead h)).withSer { s.ser with rxByte := b, rxReady := true } := by
  simp [serPoll, hread]

/-- A failed read polls the child, and a running one changes nothing (R201). -/
theorem serPoll_of_running {s : State} (hread : s.inputs.ptyRead = none) (hexit : s.inputs.childExited = false)
    (h : Nat) : serPoll h s = (s.emit (.ptyRead h)).emit (.childExited h) := by
  simp [serPoll, hread, hexit]

/-- An exited child closes the channel (R202). -/
theorem serPoll_of_exited {s : State} {h : Nat} (hchannel : s.ser.channel = .opened h)
    (hread : s.inputs.ptyRead = none) (hexit : s.inputs.childExited = true) :
    serPoll h s =
      (((s.emit (.ptyRead h)).emit (.childExited h)).emit (.ptyClose h)).withSer { s.ser with channel := .closed } := by
  have hclose := closeChannel_of_opened (s := (s.emit (.ptyRead h)).emit (.childExited h)) hchannel
  simp [serPoll, hread, hexit, hclose]

/-- Settles O21: a clock that polls nothing, and the three answers of a poll (D16). -/
theorem serClockPollsOnce : Obligations.SerClockPollsOnce := by
  intro s
  show Host.Outcome.next ((serClock s).answer (.flag (serClockResult s))) = _
  unfold serClock serClockResult
  cases hchannel : s.ser.channel with
  | closed => rfl
  | opened h =>
    by_cases hquiet : s.ser.rxReady = true ∨ s.ser.xoff = true
    · have hnone : (s.ser.rxReady || s.ser.xoff) = true := by simpa using hquiet
      simp only [hquiet, hnone]
      rfl
    · obtain ⟨hready, hxoff⟩ : s.ser.rxReady = false ∧ s.ser.xoff = false := by simpa using hquiet
      cases hread : s.inputs.ptyRead with
      | some b =>
        simp only [hready, hxoff, serPoll_of_data hread]
        rfl
      | none =>
        cases hexit : s.inputs.childExited
        · simp only [hready, hxoff, serPoll_of_running hread hexit]
          rfl
        · simp only [hready, hxoff, serPoll_of_exited hchannel hread hexit]
          rfl

/-- Settles O22: no change, and a change with the channel open or closed. -/
theorem serColumnsResizeOnChange : Obligations.SerColumnsResizeOnChange := by
  intro w s
  show Host.Outcome.next (serWriteCols w s) = _
  unfold serWriteCols
  by_cases hw : w = s.ser.columnsWide
  · rw [if_pos hw, if_neg (not_not_intro hw)]
  · rw [if_neg hw, if_pos hw]
    cases s.ser.channel <;> rfl

end Sys2Proof.Machine

/-! PROOFS, family other: the flags byte and the configuration ports (43_io_dispatch.md R236, R241, R250 to R254,
30_encoding.md R114, R116, R117), and the interrupt operations (60_exceptions.md R336, R341, R344). -/

namespace Sys2Proof.Machine

/-! ## The flags byte -/

/-- Settles O26: the read is its definition; under the default layout each source is one bit of seven (D21). -/
theorem flagsByteCollectsSevenSources : Obligations.FlagsByteCollectsSevenSources := by
  intro s
  refine ⟨_, rfl, fun hflags => ?_⟩
  simp only [flagsByte, hflags, standardFlags, flagBit]
  generalize s.cfg.avoEnabled = avo, s.cfg.graphicsPresent = graphics, s.cfg.stpPresent = stp,
    s.sig.vsync.value = vsync, s.nvr.out = out, s.inputs.kbdReady = keyboard
  revert avo graphics stp vsync out keyboard
  decide

/-! ## The configuration ports -/

/-- Operations that each run as one of a list run in sequence as the list does. -/
theorem execAll_map {Op : Type} {instr : Op → Instr} {run : Op → State → State}
    (h : ∀ op s, exec (instr op) s = .next (run op s)) (ops : List Op) (s : State) :
    execAll (ops.map instr) s = .next (ops.foldl (fun t op => run op t) s) := by
  induction ops generalizing s with
  | nil => rfl
  | cons op ops ih => simp [execAll, h, ih]

theorem exec_a2Instr (op : A2Op) (s : State) : exec (a2Instr op) s = .next (a2Run op s) := by
  cases op <;> rfl

theorem exec_c2Instr (op : C2Op) (s : State) : exec (c2Instr op) s = .next (c2Run op s) := by
  cases op <;> rfl

/-- Settles O29: both ports fold over their decoded operations, which is their sequence by `execAll_map`. -/
theorem configurationPortsRunDecodedOperations : Obligations.ConfigurationPortsRunDecodedOperations := fun v s =>
  ⟨⟨_, rfl, execAll_map exec_a2Instr (a2OpsOf s.cfg v) s⟩, ⟨_, rfl, execAll_map exec_c2Instr (c2OpsOf s.cfg v) s⟩⟩

/-- Settles O30: all bytes (D24, D25). -/
theorem defaultDecodesOfConfigurationBytes : Obligations.DefaultDecodesOfConfigurationBytes := by
  unfold Obligations.DefaultDecodesOfConfigurationBytes
  decide

/-- Settles O32: the columns are the display's flags and then `SER.WCOLS`, the rate its flags and then the period
(D25). -/
theorem c2OperationsSetColumnsAndRate : Obligations.C2OperationsSetColumnsAndRate := fun _ =>
  ⟨⟨_, rfl, rfl⟩, ⟨_, rfl, rfl⟩, rfl, rfl⟩

/-! ## Interrupts -/

/-- Under OR, merging a source a second time adds nothing (R336, D22). -/
theorem raiseIrq_raiseIrq {s : State} (h : s.cfg.vecMerge = .orIn) (src : IrqSource) :
    raiseIrq src (raiseIrq src s) = raiseIrq src s := by
  have hmerged : mergeVector s.cfg (mergeVector s.cfg s.iof.intVector src) src =
      mergeVector s.cfg s.iof.intVector src := by
    simp only [mergeVector, h, BitVec.or_assoc, BitVec.or_self]
  simp [raiseIrq, State.withIof, hmerged]

/-- Settles O33: the raise is its definition, the default merge is OR, and OR is idempotent (`raiseIrq_raiseIrq`). -/
theorem irqRaiseSetsPendingAndMerges : Obligations.IrqRaiseSetsPendingAndMerges := by
  intro src s
  refine ⟨rfl, fun h => ⟨mergeVector_of_orIn h _ .serial, mergeVector_of_orIn h _ .vertical, fun t ht => ?_⟩⟩
  cases ht
  exact congrArg Host.Outcome.next (raiseIrq_raiseIrq h src)

/-- Settles O34: the two cases of the pending flag (D44, U7). -/
theorem irqAckReturnsVectorOrIsRefused : Obligations.IrqAckReturnsVectorOrIsRefused := fun _ =>
  ⟨execIrqAck_of_pending, execIrqAck_of_not_pending⟩

/-- Settles O35: the fallback's condition, with and without the guard (D22). -/
theorem irqFallbackSubstitutes : Obligations.IrqFallbackSubstitutes := by
  intro s
  show Host.Outcome.next (fallbackIrq s) = _
  unfold fallbackIrq
  simp only [Bool.and_eq_true, Bool.or_eq_true, Bool.not_eq_true']
  rfl

end Sys2Proof.Machine

/-! PROOFS, family other: the video decoder (44_video_decoder.md R283 to R296). -/

namespace Sys2Proof.Machine

/-! ## The line scan -/

/-- The address one place on, and then k places on. -/
theorem addr_succ_add (a : Addr) (k : Nat) : a + 1 + BitVec.ofNat 16 k = a + BitVec.ofNat 16 (k + 1) := by
  rw [BitVec.add_assoc, Nat.add_comm k 1, BitVec.ofNat_add]
  rfl

/-- A scan that ends has passed no terminator, rendered every byte it passed, and stands on one (R284). -/
theorem scanLine_eq_some {s : State} {n : Nat} {a term : Addr} {cells : List GlyphCell}
    (h : scanLine s n a = some (cells, term)) :
    cells.length < n ∧ term = a + BitVec.ofNat 16 cells.length ∧ memRead s term = 0x7F ∧
    ∀ k < cells.length,
      memRead s (a + BitVec.ofNat 16 k) ≠ 0x7F ∧
      cells[k]? = some (vidChar s (a + BitVec.ofNat 16 k) (memRead s (a + BitVec.ofNat 16 k))) := by
  induction n generalizing a cells with
  | zero => cases h
  | succ n ih =>
    unfold scanLine at h
    split at h
    next hterm =>
      cases h
      exact ⟨Nat.succ_pos n, by simp, hterm, nofun⟩
    next hother =>
      split at h
      next cells' term' hrest =>
        cases h
        obtain ⟨hlength, haddr, hterm, hpassed⟩ := ih hrest
        refine ⟨Nat.succ_lt_succ hlength, haddr.trans (addr_succ_add a _), hterm, fun k hk => ?_⟩
        cases k with
        | zero => simpa [terminatorByte] using hother
        | succ k =>
          rw [← addr_succ_add]
          exact hpassed k (Nat.lt_of_succ_lt_succ hk)
      next => cases h

/-- A scan that does not end finds no terminator in its bound (R284, D31). -/
theorem scanLine_eq_none {s : State} {n : Nat} {a : Addr} (h : scanLine s n a = none) :
    ∀ k < n, memRead s (a + BitVec.ofNat 16 k) ≠ 0x7F := by
  induction n generalizing a with
  | zero => exact nofun
  | succ n ih =>
    unfold scanLine at h
    split at h
    next => cases h
    next hother =>
      split at h
      next => cases h
      next hrest =>
        intro k hk
        cases k with
        | zero => simpa [terminatorByte] using hother
        | succ k =>
          rw [← addr_succ_add]
          exact ih hrest k (Nat.lt_of_succ_lt_succ hk)

/-- Settles O44: a scan that ends by `scanLine_eq_some`, one that does not by `scanLine_eq_none` (D28, D31). -/
theorem vidLineScansToFirstTerminator : Obligations.VidLineScansToFirstTerminator := by
  intro a s
  show (∃ cells term, execVidLine a s = _ ∧ _) ∨ execVidLine a s = _ ∧ _
  unfold execVidLine
  cases hline : vidLine s a with
  | some found => exact .inl ⟨found.1, found.2, rfl, scanLine_eq_some hline⟩
  | none => exact .inr ⟨rfl, scanLine_eq_none hline⟩

/-! ## The descriptor -/

/-- The offset of a descriptor in numbers, high nibble first (R120, D28). -/
theorem nextLineAddr_toNat (c : Config) (f : DescFields) :
    (nextLineAddr c f).toNat = ((bankBase c f.bank).toNat + f.offHi.toNat * 256 + f.offLo.toNat) % 65536 := by
  have hoffset : (f.offHi ++ f.offLo).toNat = f.offHi.toNat * 256 + f.offLo.toNat := by
    rw [BitVec.toNat_append, ← Nat.shiftLeft_add_eq_or_of_lt f.offLo.isLt, Nat.shiftLeft_eq]
  have hwidth : (f.offHi ++ f.offLo).toNat < 65536 := lt_trans (f.offHi ++ f.offLo).isLt (by decide)
  rw [nextLineAddr, BitVec.toNat_add, BitVec.toNat_setWidth, Nat.mod_eq_of_lt hwidth, hoffset, ← Nat.add_assoc]

/-- The fields of a descriptor's first byte in numbers (R120). -/
theorem decodeDesc_toNat (d0 d1 : Byte) :
    (decodeDesc d0 d1).offHi.toNat = d0.toNat % 16 ∧ (decodeDesc d0 d1).attrCode.toNat = d0.toNat / 32 % 4 ∧
    (decodeDesc d0 d1).bank = decide (d0.toNat / 16 % 2 = 1) ∧
    (decodeDesc d0 d1).scroll = decide (d0.toNat ≥ 128) := by
  refine ⟨by simp [decodeDesc], ?_, Nat.testBit_eq_decide_div_mod_eq, d0.msb_eq_decide⟩
  simp [decodeDesc, Nat.shiftRight_eq_div_pow]

/-- Settles O45: the descriptor's fields in numbers. -/
theorem vidDescAssemblesNextLine : Obligations.VidDescAssemblesNextLine := by
  intro term s d0 d1 hd0 hd1
  obtain ⟨hoff, hcode, hbank, hscroll⟩ := decodeDesc_toNat (memRead s (term + 1)) (memRead s (term + 2))
  rw [← hd0] at hoff hcode hbank hscroll
  refine ⟨_, _, _, (decodeDesc (memRead s (term + 1)) (memRead s (term + 2))).attrCode.toFin, rfl, ?_, hcode, rfl, ?_⟩
  · rw [vidDesc, nextLineAddr_toNat, hoff, hbank, hd1]
    simp [bankBase, decodeDesc]
  · exact (Bool.eq_iff_iff.1 hscroll).trans decide_eq_true_iff

/-! ## Characters -/

theorem vidChar_code (s : State) (a : Addr) (b : Byte) : (vidChar s a b).code.toNat = b.toNat % 128 := by
  simp [vidChar]

/-- Settles O46: the character with the enhanced option, and without it for each base (D32). -/
theorem vidCharRendersAttributes : Obligations.VidCharRendersAttributes := by
  intro a b s
  refine ⟨_, rfl, rfl, vidChar_code s a b, fun havo => ?_, fun havo => ?_⟩
  · simp [vidChar, havo, attrAddr]
  · refine ⟨?_, ?_, ?_, fun hbase => ?_, fun hbase => ?_⟩ <;> simp [vidChar, *]

/-- The second table, when the international set is active and the surface has it (R293). -/
theorem glyphOf_of_latin {x : HostInputs} (hintl : x.intlActive = true) (hlatin : x.surfaceLatin = true) (c : Config)
    (code : BitVec 7) : glyphOf c x code = c.latinGlyph.get code.toFin := by
  simp [glyphOf, hintl, hlatin]

/-- Otherwise the control table or the code itself (R294, R295). -/
theorem glyphOf_of_not_latin {x : HostInputs} (h : ¬(x.intlActive = true ∧ x.surfaceLatin = true)) (c : Config)
    (code : BitVec 7) :
    glyphOf c x code = if h : code.toNat < 32 then c.ctrlGlyph.get ⟨code.toNat, h⟩ else .direct code := by
  rw [← Bool.and_eq_true] at h
  exact if_neg h

/-- Settles O47: the glyph of the byte's low seven bits (D33). -/
theorem vidCharChoosesGlyph : Obligations.VidCharChoosesGlyph := by
  intro a b s
  have hcode := vidChar_code s a b
  refine ⟨_, rfl, fun i hi hintl hlatin => ?_, fun i hi hnot => ?_, fun hprintable hnot => ?_⟩
  · obtain rfl : i = (vidChar s a b).code.toFin := Fin.ext (hi.trans hcode.symm)
    exact glyphOf_of_latin hintl hlatin _ _
  · have hcontrol : (vidChar s a b).code.toNat < 32 := by omega
    obtain rfl : i = ⟨_, hcontrol⟩ := Fin.ext (hi.trans hcode.symm)
    exact (glyphOf_of_not_latin hnot _ _).trans (dif_pos hcontrol)
  · have hprinted : ¬(vidChar s a b).code.toNat < 32 := by omega
    have hbyte : (vidChar s a b).code = BitVec.ofNat 7 b.toNat := BitVec.eq_of_toNat_eq (by simp [hcode])
    rw [← hbyte]
    exact (glyphOf_of_not_latin hnot _ _).trans (dif_neg hprinted)

/-- Settles O48: the cases of `vidSetup` (D34). -/
theorem vidSetupRecognisesMarkers : Obligations.VidSetupRecognisesMarkers := by
  intro index cells s
  refine ⟨_, rfl, fun h => if_pos h, fun hindex hscroll hlength => ?_⟩
  have hsetup : ¬(index ≠ s.cfg.setupLineIndex ∨ s.disp.scrollLatch ≠ 0 ∨ cells.length < 9) := by
    simp [hindex, hscroll, hlength]
  unfold vidSetup
  rw [if_neg hsetup]
  exact ⟨fun hA => if_pos hA,
    fun hA => ⟨fun hB => (if_neg hA).trans (if_pos hB), fun hB => (if_neg hA).trans (if_neg hB)⟩⟩

/-! ## The walk -/

section
variable {s : State} {room index : Nat} {start : Addr} {attr : LineAttr} {scroll : Bool} {overlay : Overlay}
  {k : Nat} {l m : RenderedLine}

/-- A walk renders no more lines than it has room for (R287, D31). -/
theorem walkFrom_length_le : (walkFrom s room index start attr scroll overlay).1.length ≤ room := by
  fun_induction walkFrom s room index start attr scroll overlay
  case case1 | case2 => exact Nat.zero_le _
  case case3 => exact Nat.succ_le_succ (Nat.zero_le _)
  case case4 ih => exact Nat.succ_le_succ ih

/-- The first line of a walk is the one it starts with (R283). -/
theorem walkFrom_first (hl : (walkFrom s room index start attr scroll overlay).1[0]? = some l) :
    l.start = start ∧ l.attr = attr ∧ l.scroll = scroll := by
  revert hl
  fun_cases walkFrom s room index start attr scroll overlay
  case case1 | case2 => exact nofun
  case case3 | case4 =>
    intro hl
    rw [← Option.some.inj hl]
    exact ⟨rfl, rfl, rfl⟩

/-- A line of a walk has its place as index and is the scan of its start (R283). -/
theorem walkFrom_line (hl : (walkFrom s room index start attr scroll overlay).1[k]? = some l) :
    l.index = index + k ∧ ∃ term, vidLine s l.start = some (l.cells, term) := by
  fun_induction walkFrom s room index start attr scroll overlay generalizing k
  case case1 | case2 => simp at hl
  case case3 term _ _ hfirst line =>
    obtain ⟨rfl, rfl⟩ : k = 0 ∧ line = l := by simpa [List.getElem?_singleton] using hl
    exact ⟨rfl, term, hfirst⟩
  case case4 term hfirst _ line _ _ rest ih =>
    cases k with
    | zero =>
      obtain rfl : line = l := by simpa using hl
      exact ⟨rfl, term, hfirst⟩
    | succ k =>
      obtain ⟨hindex, hscan⟩ := ih (by simpa using hl)
      exact ⟨by omega, hscan⟩

/-- The next line of a walk is the one the descriptor after the line names, and is not the line itself (R285, R286,
D29). -/
theorem walkFrom_next {term : Addr} (hl : (walkFrom s room index start attr scroll overlay).1[k]? = some l)
    (hline : vidLine s l.start = some (l.cells, term))
    (hm : (walkFrom s room index start attr scroll overlay).1[k + 1]? = some m) :
    m.start = (vidDesc s term).next ∧ m.attr = (vidDesc s term).attr ∧ m.scroll = (vidDesc s term).scroll ∧
    m.start ≠ l.start := by
  fun_induction walkFrom s room index start attr scroll overlay generalizing k
  case case1 | case2 | case3 => simp at hm
  case case4 term' hfirst _ line _ hnext rest ih =>
    cases k with
    | zero =>
      obtain rfl : line = l := by simpa using hl
      obtain rfl : term' = term := vidLine_term_unique hfirst hline
      obtain ⟨hstart, hattr, hscroll⟩ := walkFrom_first (by simpa using hm)
      exact ⟨hstart, hattr, hscroll, hstart ▸ hnext⟩
    | succ k => exact ih (by simpa using hl) (by simpa using hm)

/-- The first overlay other than none that the setup test gives for a list of lines (R296). -/
def firstOverlay (s : State) (lines : List RenderedLine) : Overlay :=
  ((lines.map fun l => vidSetup s l.index l.cells).find? fun o => o != .none).getD .none

/-- With no line left, an overlay found is kept, and none stays none. -/
theorem overlay_of_no_lines (found : Overlay) : found = if found = .none then firstOverlay s [] else found := by
  cases found <;> rfl

/-- Looking at a line first, and then at the others if nothing is found, is looking at all of them (R283). -/
theorem overlay_of_line (found : Overlay) (l : RenderedLine) (lines : List RenderedLine) :
    (if (if found = .none then vidSetup s l.index l.cells else found) = .none then firstOverlay s lines
      else if found = .none then vidSetup s l.index l.cells else found) =
        if found = .none then firstOverlay s (l :: lines) else found := by
  by_cases hfound : found = .none
  · by_cases hline : vidSetup s l.index l.cells = .none <;> simp [firstOverlay, hfound, hline]
  · simp [hfound]

/-- A walk keeps an overlay it has, and else finds the first of its lines (R283). -/
theorem walkFrom_overlay :
    (walkFrom s room index start attr scroll overlay).2 =
      if overlay = .none then firstOverlay s (walkFrom s room index start attr scroll overlay).1 else overlay := by
  fun_induction walkFrom s room index start attr scroll overlay
  case case1 | case2 => exact overlay_of_no_lines _
  case case3 line => exact (overlay_of_no_lines _).trans (overlay_of_line _ line [])
  case case4 line _ _ rest ih => exact ih.trans (overlay_of_line _ line rest.1)

end

/-- Settles O50: the lines by `walkFrom_first`, `walkFrom_line` and `walkFrom_next`, the overlay by `walkFrom_overlay`
(D29, D31, D34). -/
theorem walkFollowsDescriptorsWithinBound : Obligations.WalkFollowsDescriptorsWithinBound := by
  intro s
  refine ⟨walkFrom_length_le, fun _ => walkFrom_first, fun k l hl => ?_, walkFrom_overlay⟩
  obtain ⟨hindex, term, hline⟩ := walkFrom_line hl
  exact ⟨by omega, term, hline, fun _ => walkFrom_next hl hline⟩

end Sys2Proof.Machine

/-! PROOFS, family other: the state after construction (10_state.md R50, 70_reset_and_hazards.md R370 to R373). -/

namespace Sys2Proof.Machine

/-! ## The invariants -/

/-- At reset nothing is pending and nothing waits, so the invariant asks for a well-formed configuration only (D36,
log 8). -/
theorem resetWith_inv {c : Config} (hc : c.WF) (file : Option (List Byte)) (running controlMode : Bool) :
    (State.resetWith c file running controlMode).Inv :=
  ⟨Memory.wf_nil, fun _ => rfl, hc, Nat.two_pow_pos _, fun _ => ⟨rfl, List.forall_mem_nil _⟩, List.forall_mem_nil _⟩

/-- At reset the periods are the configuration's, and command and baud register are 0 (D36, log 10). -/
theorem resetWith_coupled (c : Config) (file : Option (List Byte)) (running controlMode : Bool) :
    (State.resetWith c file running controlMode).Coupled :=
  ⟨rfl, rfl, rfl, .inr ⟨rfl, rfl⟩, rfl, fun _ => .inl rfl⟩

theorem lineAttrAt_injective : Function.Injective lineAttrAt := by
  decide

/-- The default configuration is well formed, whatever the OPEN parameters are (R7, log 4). -/
theorem standardConfig_wf : standardConfig.WF := by
  refine ⟨by decide, ?_, Nat.succ_pos _, ?_⟩
  · show (Vector.ofFn fun i => lineAttrAt (Config.openLineAttrOrder i)).toList.Nodup
    rw [Vector.toList_ofFn]
    exact List.nodup_ofFn.2 (lineAttrAt_injective.comp (Equiv.injective _))
  · exact List.Nodup.map (f := Config.openAttrBits) (l := [0, 1, 2, 3]) (Equiv.injective _) (by decide)

/-- Settles O58: `resetWith_inv` and `resetWith_coupled`, and the default configuration is well formed. -/
theorem resetMeetsInvariants : Obligations.ResetMeetsInvariants :=
  ⟨fun c file running controlMode hc =>
      ⟨resetWith_inv hc file running controlMode, resetWith_coupled c file running controlMode⟩,
    resetWith_inv standardConfig_wf _ _ _, resetWith_coupled _ _ _ _⟩

/-! ## The latch -/

/-- The eight commands, once each, make up every well-formed code map (R104). -/
theorem exists_code {c : Config} (hc : c.WF) (cmd : NvrCommand) : ∃ code, nvrCommandOf c code = cmd := by
  have hall (cmd : NvrCommand) : cmd ∈ NvrCommand.standardOrder := by cases cmd <;> decide
  have hperm : c.nvrCommands.toList.Perm NvrCommand.standardOrder :=
    (hc.1.subperm fun cmd _ => hall cmd).perm_of_length_le (by simp [NvrCommand.standardOrder])
  obtain ⟨i, hi, hcmd⟩ := List.getElem_of_mem (hperm.mem_iff.2 (hall cmd))
  have hplace : i < 8 := by simpa using hi
  exact ⟨BitVec.ofNat 3 i, by simpa [nvrCommandOf, Vector.get_eq_getElem, Nat.mod_eq_of_lt hplace] using hcmd⟩

/-- The code of a latch byte under the default layout (R103, D7). -/
theorem code_of_latch_byte : ∀ code : BitVec 3, (code.setWidth 8 <<< 1).extractLsb' 1 3 = code := by
  decide

/-- Under the default layout every command has a latch byte with data bit 0 (D7). -/
theorem exists_latch_byte {c : Config} (hc : c.WF) (hlatch : c.latch = .standard) (cmd : NvrCommand) :
    ∃ b, nvrCommandOf c (nvrCode c b) = cmd ∧ nvrDataBit c b = false := by
  obtain ⟨code, hcode⟩ := exists_code hc cmd
  refine ⟨code.setWidth 8 <<< 1, ?_, ?_⟩
  · simpa only [nvrCode, hlatch, code_of_latch_byte] using hcode
  · simp [nvrDataBit, hlatch]

/-- Settles O59: element by element the definition, but for the file (the cases of `loadNvr`) and the latch
(`latchByte_spec`). -/
theorem resetValuesOfTheTable : Obligations.ResetValuesOfTheTable := by
  intro c file running controlMode s hc hs
  subst hs
  refine ⟨⟨rfl, rfl, rfl⟩, ?_, ?_, ?_, ⟨rfl, rfl, rfl, rfl⟩, ⟨rfl, rfl, rfl, rfl, rfl⟩, rfl, rfl, rfl, ?_, rfl,
    rfl, rfl, rfl, rfl, fun _ => rfl, rfl, rfl, rfl, rfl, rfl⟩
  · rintro text cells rfl hcells
    simp [State.resetWith, loadNvr, nvrLoadFails, hcells]
  · rintro (rfl | ⟨text, rfl, hbad⟩)
    · exact ⟨rfl, rfl⟩
    · simp [State.resetWith, loadNvr, nvrLoadFails, hbad]
  · rintro (hlatch | hbyte)
    · exact latchByte_spec (exists_latch_byte hc hlatch .standby)
    · exact latchByte_spec hbyte
  · intro x
    cases x <;> exact ⟨rfl, rfl⟩

end Sys2Proof.Machine
